-- ==== Sys2Proof/Word.lean ====
section
/-! DEFINITION. The word types of the block (00_scope.md R9: every value is unsigned; bits are numbered from 0 at the
least significant bit). -/

namespace Sys2Proof

/-- A byte on the link, a buffer cell, a mask, the checksum accumulator: 8 bits (R9). -/
abbrev Byte := BitVec 8

/-- The byte counter `CNT`: 9 bits (R24, D29). -/
abbrev Count := BitVec 9

/-- A payload offset `p` of a table entry: 5 bits (R80). -/
abbrev Offset := BitVec 5

/-- A packed row of the command table ROM: 383 bits (R81). -/
abbrev RomRow := BitVec 383

end Sys2Proof
end

