-- ==== Sys2Proof/Config.lean ====
section
/-! DEFINITION. The implementation parameters of the block that are fixed for this hardware (00_scope.md R7).

`CMD_TABLE` and `NE` are OPEN there: they are a field of State and an argument of `State.resetWith`.
`TIMEOUT_WINDOW` and `BAUD` are outside the block and no rule of it reads them (R7, R230).
`FILTER_DIAG` is the renderer's (R182): an argument of `Machine.lineShown`. -/

namespace Sys2Proof.Config

/-- `MAX_DATA`: the largest payload length that frames without overflow (R7). -/
def maxData : Nat := 20

/-- `BUF_CAP`: the packet buffer's capacity in bytes, `7 + MAX_DATA` (R7, C1, D1). -/
def bufCap : Nat := 27

/-- The most entries a command table may have (R7, R8). -/
def maxEntries : Nat := 32

/-- `K_MAX`: the longest pattern an entry may hold, `BUF_CAP - 4` (R7, D12). -/
def kMax : Nat := 23

/-- The frame index at which patterns start: the length field (R80). -/
def patternBase : Nat := 4

/-- The frame index of payload byte 0 (R58). -/
def payloadBase : Nat := 5

end Sys2Proof.Config
end

