-- ==== Sys2Proof/Syntax.lean ====
section
/-! DEFINITION. The syntax: what is presented on the block's ports, the command table's entries, and the twelve
instructions of spec/opcode_table.json (four operations and eight field decoders, 30_encoding.md R88). -/

namespace Sys2Proof

/-- The eight field decoders the multiplexer selects among (R85). -/
inductive FSel where
  | fNone | fOk | fPower | fModeSet | fModeGet | fFan | fStatus | fTemp
deriving DecidableEq, Repr

/-- The eighteen handler kinds a table entry may name (R84). -/
inductive HandlerKind where
  | powerSet | powerSetAck
  | modeSet | modeSetAck
  | modeGet | modeGetAck
  | setpointSet | setpointSetAck
  | setpointGet | setpointGetAck
  | fanSet | fanSetAck
  | fanGet | fanGetAck
  | statusGet | statusGetAck
  | tempGet | tempGetAck
deriving DecidableEq, Repr

/-- One entry of `CMD_TABLE` (R80). `pat` holds the pairs (mask[i], exp[i]) for i = 0 .. k-1, so that both sequences
have the one length `k`. -/
structure Entry where
  pat : List (Byte × Byte)
  hk  : HandlerKind
  p   : Offset
deriving DecidableEq, Repr

/-- The pattern length `k` of an entry (R80). -/
def Entry.k (e : Entry) : Nat := e.pat.length

/-- What the driver presents in one step: the 10-bit operation word (R70) and the configuration port beside it (R71). -/
structure OpWord where
  opw         : BitVec 10
  cfgFiltEn   : Bool
  cfgFiltAddr : Byte
deriving DecidableEq, Repr

/-- The field multiplexer's select lines: the decoder code `fsel` (R85) and the payload offset `p` (R150). -/
structure SelWord where
  fsel : BitVec 3
  p    : Offset
deriving DecidableEq, Repr

/-- A word of either format of the opcode table: OPW, on the operation port, or FSEL, on the multiplexer's select
lines (R88). -/
inductive PortWord where
  | op  (w : OpWord)
  | sel (w : SelWord)
deriving DecidableEq, Repr

/-- The instructions: one constructor per row of spec/opcode_table.json. RESET's operands are the configuration port
(R112); a decoder that reads payload bytes takes the payload offset `p` of its first one (R150, R155 to R161). -/
inductive Instr where
  | nop
  | byte (b : Byte)
  | timeout
  | reset (cfgFiltEn : Bool) (cfgFiltAddr : Byte)
  | fNone
  | fOk
  | fPower (p : Offset)
  | fModeSet (p : Offset)
  | fModeGet (p : Offset)
  | fFan (p : Offset)
  | fStatus (p : Offset)
  | fTemp (p : Offset)
deriving DecidableEq, Repr

end Sys2Proof
end

