-- ==== Sys2Proof/WellFormed.lean ====
section
/-! DEFINITION. What is well formed: payload offsets, table entries and command tables (00_scope.md R8, R83 of
30_encoding.md). An ill-formed table or offset is refused, never repaired and never given a meaning. -/

namespace Sys2Proof

/-- `0 <= p <= MAX_DATA - 1` (R8; R83: `p` in 20..31 is illegal). -/
def offsetWf (p : Offset) : Bool := decide (p.toNat < Config.maxData)

/-- An instruction is well formed when its payload offset, if it has one, is legal. -/
def Instr.wf : Instr → Bool
  | .nop => true
  | .byte _ => true
  | .timeout => true
  | .reset _ _ => true
  | .fNone => true
  | .fOk => true
  | .fPower p => offsetWf p
  | .fModeSet p => offsetWf p
  | .fModeGet p => offsetWf p
  | .fFan p => offsetWf p
  | .fStatus p => offsetWf p
  | .fTemp p => offsetWf p

/-- An entry is well formed when `k <= K_MAX` and its offset is legal (R8). Its handler kind is one of the eighteen by
its type; a ROM row with another code is refused when it is unpacked (`Decode.unpackEntry`). -/
def Entry.wf (e : Entry) : Bool := decide (e.k ≤ Config.kMax) && offsetWf e.p

/-- A `CMD_TABLE` is well formed when `NE <= 32` and every entry is (R8). -/
def tableWf (t : List Entry) : Bool := decide (t.length ≤ Config.maxEntries) && t.all Entry.wf

end Sys2Proof
end

