-- ==== Sys2Proof/Decode.lean ====
section
/-! DEFINITION. Decoding and encoding (30_encoding.md): operation words R70 to R72, field decoder selects R85, handler
kinds R84, packed table entries R81, R83. Every decoder is total and rejects by name. -/

namespace Sys2Proof

/-- Why a word is rejected. -/
inductive DecodeError where
  /-- a payload offset `p` in 20..31 (R83) -/
  | illegalOffset
  /-- a pattern length `k > 23` (R83) -/
  | illegalPatternLength
  /-- a handler kind 0 or 19..31 (R83, R84) -/
  | illegalHandlerKind
  /-- more than 32 entries (R83) -/
  | tooManyEntries
deriving DecidableEq, Repr

/-! ### Field decoder codes (R85) -/

/-- The code of a field decoder (R85). -/
def FSel.code : FSel → BitVec 3
  | .fNone => 0
  | .fOk => 1
  | .fPower => 2
  | .fModeSet => 3
  | .fModeGet => 4
  | .fFan => 5
  | .fStatus => 6
  | .fTemp => 7

/-- The field decoder of a code: all eight codes are used (R85). -/
def FSel.ofCode (c : BitVec 3) : FSel :=
  if c = 0 then .fNone
  else if c = 1 then .fOk
  else if c = 2 then .fPower
  else if c = 3 then .fModeSet
  else if c = 4 then .fModeGet
  else if c = 5 then .fFan
  else if c = 6 then .fStatus
  else .fTemp

/-! ### Handler kind codes (R84) -/

/-- The code of a handler kind (R84). -/
def HandlerKind.code : HandlerKind → BitVec 5
  | .powerSet => 1
  | .powerSetAck => 2
  | .modeSet => 3
  | .modeSetAck => 4
  | .modeGet => 5
  | .modeGetAck => 6
  | .setpointSet => 7
  | .setpointSetAck => 8
  | .setpointGet => 9
  | .setpointGetAck => 10
  | .fanSet => 11
  | .fanSetAck => 12
  | .fanGet => 13
  | .fanGetAck => 14
  | .statusGet => 15
  | .statusGetAck => 16
  | .tempGet => 17
  | .tempGetAck => 18

/-- The handler kinds in the order of their codes 1 to 18 (R84). -/
def HandlerKind.all : List HandlerKind :=
  [.powerSet, .powerSetAck, .modeSet, .modeSetAck, .modeGet, .modeGetAck,
   .setpointSet, .setpointSetAck, .setpointGet, .setpointGetAck, .fanSet, .fanSetAck,
   .fanGet, .fanGetAck, .statusGet, .statusGetAck, .tempGet, .tempGetAck]

/-- The handler kind of a code; 0 and 19..31 are illegal (R83). -/
def HandlerKind.ofCode (c : BitVec 5) : Option HandlerKind :=
  if c = 0 then none else HandlerKind.all[c.toNat - 1]?

/-! ### Port words (R70 to R72, R85) -/

/-- The operation an operation word selects: `OP = opw[9:8]` alone; `DATA = opw[7:0]` is BYTE's operand and ignored
otherwise; all four values of `OP` are defined, so no operation word is illegal (R70, R72). -/
def decodeOp (w : OpWord) : Instr :=
  let op := w.opw.extractLsb' 8 2
  if op = 0 then .nop
  else if op = 1 then .byte (w.opw.extractLsb' 0 8)
  else if op = 2 then .timeout
  else .reset w.cfgFiltEn w.cfgFiltAddr

/-- The instruction of a field decoder at a payload offset. F_NONE and F_OK read no byte, so they take no offset
(R153, R154). -/
def FSel.instr (fs : FSel) (p : Offset) : Instr :=
  match fs with
  | .fNone => .fNone
  | .fOk => .fOk
  | .fPower => .fPower p
  | .fModeSet => .fModeSet p
  | .fModeGet => .fModeGet p
  | .fFan => .fFan p
  | .fStatus => .fStatus p
  | .fTemp => .fTemp p

/-- The decoder a select word selects (R85), rejecting an illegal offset (R83) where the decoder takes one. -/
def decodeSel (w : SelWord) : Except DecodeError Instr :=
  let i := (FSel.ofCode w.fsel).instr w.p
  if i.wf then .ok i else .error .illegalOffset

/-- Decoding, total on every word of either port. -/
def decode : PortWord → Except DecodeError Instr
  | .op w => .ok (decodeOp w)
  | .sel w => decodeSel w

/-- An operation word `{OP, DATA}` (R70). -/
def opWord (op : BitVec 2) (data : Byte) (en : Bool) (addr : Byte) : PortWord :=
  .op ⟨op ++ data, en, addr⟩

/-- A select word (R85). -/
def selWord (fs : FSel) (p : Offset) : PortWord := .sel ⟨fs.code, p⟩

/-- The word of an instruction: an assembler writes 0 in DATA bits that are ignored (R72, R89), and the configuration
port is driven to 0 beside an operation that ignores it. -/
def encode : Instr → PortWord
  | .nop => opWord 0 0 false 0
  | .byte b => opWord 1 b false 0
  | .timeout => opWord 2 0 false 0
  | .reset en addr => opWord 3 0 en addr
  | .fNone => selWord .fNone 0
  | .fOk => selWord .fOk 0
  | .fPower p => selWord .fPower p
  | .fModeSet p => selWord .fModeSet p
  | .fModeGet p => selWord .fModeGet p
  | .fFan p => selWord .fFan p
  | .fStatus p => selWord .fStatus p
  | .fTemp p => selWord .fTemp p

/-! ### The opcode table's numbering -/

/-- The port word whose bits are `w` (log 5). A row of at most 8 bits is of format FSEL: `fsel` in bits 2:0 and the
payload offset in bits 12:8, the low five bits of a second byte. A wider row is of format OPW: `opw` in bits 9:0,
`cfg_filt_en` in bit 16, `cfg_filt_addr` in bits 31:24. A bit with no wire of the port is dropped. -/
def PortWord.ofBits (nbits w : Nat) : PortWord :=
  if nbits ≤ 8 then .sel ⟨BitVec.ofNat 3 w, BitVec.ofNat 5 (w / 2 ^ 8)⟩
  else .op ⟨BitVec.ofNat 10 w, w.testBit 16, BitVec.ofNat 8 (w / 2 ^ 24)⟩

/-- The instruction the decoder reads from an instruction whose bits are `w`, numbered as the opcode table numbers
them; the bits above `nbits` are 0. -/
def decodeTableWord (nbits w : Nat) : Option Instr :=
  match decode (PortWord.ofBits nbits (w % 2 ^ nbits)) with
  | .ok i => some i
  | .error _ => none

/-! ### Packed table entries (R81) -/

/-- Byte `i` of the mask field of a ROM row: bits 15+8i+7 : 15+8i (R81). -/
def romMask (r : RomRow) (i : Nat) : Byte := r.extractLsb' (15 + 8 * i) 8

/-- Byte `i` of the expected field of a ROM row: bits 199+8i+7 : 199+8i (R81). -/
def romExp (r : RomRow) (i : Nat) : Byte := r.extractLsb' (199 + 8 * i) 8

/-- The entry of a ROM row (R81); the bits of positions `i >= k` are ignored (R82). Illegal `k`, `hk` and `p` are
refused by name (R83). -/
def unpackEntry (r : RomRow) : Except DecodeError Entry :=
  let k := (r.extractLsb' 0 5).toNat
  let p : Offset := r.extractLsb' 10 5
  if Config.kMax < k then .error .illegalPatternLength
  else if offsetWf p = false then .error .illegalOffset
  else match HandlerKind.ofCode (r.extractLsb' 5 5) with
    | none => .error .illegalHandlerKind
    | some hk => .ok ⟨(List.range k).map (fun i => (romMask r i, romExp r i)), hk, p⟩

/-- The number whose base-256 digits are the given bytes, the first the least significant. -/
def packBytes : List Byte → Nat
  | [] => 0
  | b :: bs => b.toNat + 2 ^ 8 * packBytes bs

/-- The ROM row of an entry (R81): `k`, `hk`, `p`, the masks from bit 15 and the expected bytes from bit 199; bits of
positions `i >= k` are written 0. -/
def packEntry (e : Entry) : RomRow :=
  BitVec.ofNat 383
    (e.k + 2 ^ 5 * e.hk.code.toNat + 2 ^ 10 * e.p.toNat
      + 2 ^ 15 * packBytes (e.pat.map Prod.fst) + 2 ^ 199 * packBytes (e.pat.map Prod.snd))

/-- Unpack the rows of a table ROM in order, stopping at the first illegal one. -/
def unpackRows : List RomRow → Except DecodeError (List Entry)
  | [] => .ok []
  | r :: rs =>
    match unpackEntry r with
    | .error x => .error x
    | .ok e =>
      match unpackRows rs with
      | .error x => .error x
      | .ok es => .ok (e :: es)

/-- Build a command table from its ROM image, entry `j` from row `j` (R81), refusing more than 32 entries and any
illegal one: an ill-formed table is refused, never repaired (R8, R83). -/
def buildTable (rows : List RomRow) : Except DecodeError (List Entry) :=
  if Config.maxEntries < rows.length then .error .tooManyEntries else unpackRows rows

end Sys2Proof
end

