-- ==== Sys2Proof/Machine/State.lean ====
section
/-! DEFINITION. The state of the block (10_state.md R22), its output record (30_encoding.md R73), the reasons a step can
stop, and the state after reset (R41). -/

namespace Sys2Proof.Machine

/-- `PHASE` (R23): two bits. `reserved` is the value 0b11, which is never held (R23, X14). -/
inductive Phase where
  | idle | acc | skip | reserved
deriving DecidableEq, Repr

/-- The event of a step, `O.ev` (R74). `badLength` is the code kept for an extension and never produced (R75); the
codes 10 to 15 have no event. -/
inductive Event where
  | noEvent | continuing | frameComplete | overflow | badCrc | badLength | skipEnd | abandon | heartbeat | resetDone
deriving DecidableEq, Repr

/-- A field value code, `O.f_code` (R87): all sixteen are used. -/
inductive FieldCode where
  | unknown | on | off | heat | cool | auto | fanOnly | low | medium | high | stopped | running | ok | temp
  | noField | fieldOor
deriving DecidableEq, Repr

/-- The output record `O` of a step (R73). `frame` has the 27 bytes `frame[0..26]`. -/
structure OutRecord where
  ev    : Event
  fend  : Bool
  sep   : Bool
  chk   : Bool
  acc   : Byte
  flen  : BitVec 5
  frame : List Byte
  pass  : Bool
  mHit  : Bool
  mIdx  : BitVec 5
  mHk   : BitVec 5
  fSel  : FSel
  fCode : FieldCode
  fRaw  : Byte
  c10   : BitVec 16
  f10   : BitVec 16
deriving DecidableEq, Repr

/-- The all-zero record every step starts from (R73). The codes 0 are `NONE` (R74), `F_NONE` (R85), `UNKNOWN` (R87). -/
def OutRecord.zero : OutRecord :=
  { ev := .noEvent, fend := false, sep := false, chk := false, acc := 0, flen := 0
    frame := List.replicate Config.bufCap 0, pass := false, mHit := false, mIdx := 0, mHk := 0
    fSel := .fNone, fCode := .unknown, fRaw := 0, c10 := 0, f10 := 0 }

/-- The packet buffer's contents: (frame index, byte) pairs, indexes strictly rising, no entry equal to what an
unlisted cell reads as (`Memory.wf`). -/
abbrev Memory := List Host.Cell

/-- The state of the block (R22: "The block's state is exactly" the first ten fields), and the model's own fields. -/
structure State where
  /-- `PHASE` (R23) -/
  phase    : Phase
  /-- `CNT` (R24) -/
  cnt      : Count
  /-- `CSUM` (R25) -/
  csum     : Byte
  /-- `LEN` (R26) -/
  len      : Byte
  /-- `OVF` (R27) -/
  ovf      : Bool
  /-- `SKIPC` (R28): false = buffer overflow, true = checksum mismatch -/
  skipc    : Bool
  /-- `buf` (R29) -/
  buf      : Memory
  /-- `FILT_EN` (R30) -/
  filtEn   : Bool
  /-- `FILT_ADDR` (R30) -/
  filtAddr : Byte
  /-- `CMD_TABLE` (R31) -/
  table    : List Entry
  /-- the model's own: whether a RESET has happened (R220; log 9) -/
  booted   : Bool
  /-- the model's own: the output record of the last step (R36, R73; log 1) -/
  out      : OutRecord
  /-- the model's own: the driver's operations still to come, the next first (R21; log 2) -/
  inputs   : List OpWord
  /-- the model's own: the field multiplexer's select lines, when they are driven directly (log 4) -/
  probe    : Option SelWord
deriving DecidableEq, Repr

/-- Why the block stops with a fault. No operation of the block traps (R203), no access can fault (R59) and no condition
makes it stop (R200). The one fault is X14's. -/
inductive Fault where
  /-- Raised by every instruction but RESET in a state whose `PHASE` is 0b11, a value that is never held (R23, X14: "a
  model state with it is unreachable"). Safe: the machine stops where the hardware has no behaviour. -/
  | reservedPhase
deriving DecidableEq, Repr

/-- Why the model has no meaning for a step. -/
inductive Refusal where
  /-- Raised by an arm of `exec` whose instruction has no meaning yet: no arm of this model. Safe. -/
  | notModelled (mnemonic : String)
  /-- Raised by every instruction but RESET before the first RESET (R220, D20, X23). Safe. -/
  | beforeFirstReset
  /-- Raised by every instruction when `CMD_TABLE` is ill formed (R8, R83, X15). Safe. -/
  | illFormedTable
  /-- Raised by `step` and by a field decoder on a payload offset 20..31 (R83, X15). Safe. -/
  | illegalPayloadOffset
deriving DecidableEq, Repr

/-- The state after a RESET (R41) of the block built with command table `t`, the configuration port carrying `en` and
`addr`. The record is that RESET step's own (R112). -/
def State.resetWith (t : List Entry) (en : Bool) (addr : Byte) : State :=
  { phase := .idle, cnt := 0, csum := 0, len := 0, ovf := false, skipc := false
    buf := [], filtEn := en, filtAddr := addr, table := t
    booted := true, out := { OutRecord.zero with ev := .resetDone }, inputs := [], probe := none }

/-- The state right after reset (R41): after the plain `RESET` of R89, `cfg_filt_en = 0` and `cfg_filt_addr = 0` (log 7).
DESIGN CHOICE (log 8): the OPEN parameter `CMD_TABLE` is the empty table here. -/
def State.reset : State := State.resetWith [] false 0

/-- A power-on state (R220): before the first RESET no register holds a defined value, so they are whatever `junk` has. -/
def State.powerOn (junk : State) : State := { junk with booted := false, probe := none }

end Sys2Proof.Machine
end

