-- ==== Sys2Proof/Machine/Ops.lean ====
section
/-! DEFINITION. The operations every meaning is built from: reading and writing the packet buffer (00_scope.md R10,
20_memory.md R50 to R59), raising a condition (R10, 60_exceptions.md R203), the frame-end clear (R110), and the guards
of 70_reset_and_hazards.md R220 and 00_scope.md R8. -/

namespace Sys2Proof.Machine

/-! ### The packet buffer -/

/-- What a cell that is not listed reads as. DESIGN CHOICE (log 6): the spec leaves it any value and no rule reads one
(R40, X20). -/
def Memory.unlisted (_i : Nat) : Byte := 0

/-- `MemRead(i, 1)` (R10). -/
def Memory.read (m : Memory) (i : Nat) : Byte :=
  match m with
  | [] => Memory.unlisted i
  | (k, v) :: rest => if k = i then v else Memory.read rest i

/-- Put cell `i` in front of cells with greater indexes, unless it would read the same unlisted. -/
def Memory.put (i : Nat) (v : Byte) (rest : Memory) : Memory :=
  if v = Memory.unlisted i then rest else (i, v) :: rest

/-- `MemWrite(i, 1, v)` (R10), keeping the canonical form. -/
def Memory.write (m : Memory) (i : Nat) (v : Byte) : Memory :=
  match m with
  | [] => Memory.put i v []
  | (k, w) :: rest =>
    if i < k then Memory.put i v ((k, w) :: rest)
    else if k = i then Memory.put i v rest
    else (k, w) :: Memory.write rest i v

/-- Every listed index is at least `lo` and below `BUF_CAP`, the indexes rise strictly and no listed cell reads as an
unlisted one. -/
def Memory.wfFrom (lo : Nat) : Memory → Bool
  | [] => true
  | (k, v) :: rest =>
    decide (lo ≤ k) && decide (k < Config.bufCap) && decide (v ≠ Memory.unlisted k) && Memory.wfFrom (k + 1) rest

/-- The canonical form of the buffer: 27 cells, indexes 0..26 (R29, R50). -/
def Memory.wf (m : Memory) : Bool := Memory.wfFrom 0 m

/-! ### The output record -/

/-- `O <- all-zero record`, the first line of every operation (R73, R100, R101, R111, R112). -/
def clearOut (s : State) : State := { s with out := OutRecord.zero }

/-- `raise <Event>()`: set `O.ev` to the event. It is not a trap: it transfers no control and saves nothing (R10, R203). -/
def raise (e : Event) (s : State) : State := { s with out := { s.out with ev := e } }

/-- `O.fend <- 1` (R106, R108, R111). -/
def markFrameEnd (s : State) : State := { s with out := { s.out with fend := true } }

/-- `frame[0..26]` when `n` bytes are output: `buf[i]` for `i < n`, 0 at and above `n` (R73). -/
def frameBytes (m : Memory) (n : Nat) : List Byte :=
  (List.range Config.bufCap).map (fun i => if i < n then m.read i else 0)

/-- `O.flen <- n` and `O.frame[i] <- MemRead(i, 1)` for `i` in `0 .. n-1` (R106, R132). -/
def outputFrame (n : Count) (s : State) : State :=
  { s with out := { s.out with flen := n.setWidth 5, frame := frameBytes s.buf n.toNat } }

/-! ### The end of a frame -/

/-- FRAME_END_CLEAR (R110), which is also the recovery from a condemned frame (R204): the buffer cells, the filter
registers and the table are not touched. -/
def frameEndClear (s : State) : State :=
  { s with phase := .idle, cnt := 0, csum := 0, len := 0, ovf := false, skipc := false }

/-! ### Guards -/

/-- A model is instantiated only with a well-formed table (R8): with another there is no meaning. -/
def whenBuilt (s : State) (k : State → Host.Outcome State Fault Refusal) : Host.Outcome State Fault Refusal :=
  if tableWf s.table then k s else .refused .illFormedTable

/-- Every operation but RESET is refused before the first RESET (R220, D20) and faults when `PHASE` is 0b11 (X14). -/
def whenRunning (s : State) (k : State → Host.Outcome State Fault Refusal) : Host.Outcome State Fault Refusal :=
  whenBuilt s (fun s =>
    if s.booted = false then .refused .beforeFirstReset
    else if s.phase = .reserved then .fault .reservedPhase
    else k s)

/-- A payload offset 20..31 has no meaning (R83, X15). -/
def whenOffset (p : Offset) (s : State) (k : State → Host.Outcome State Fault Refusal) :
    Host.Outcome State Fault Refusal :=
  if offsetWf p then k s else .refused .illegalPayloadOffset

end Sys2Proof.Machine
end

