-- ==== Sys2Proof/Machine/Operands.lean ====
section
/-! DEFINITION. The operand fields of a frame as the block assembles them (30_encoding.md R78, 20_memory.md R58). Every
byte is unsigned; none is sign-extended, scaled or shifted. -/

namespace Sys2Proof.Machine

/-- The destination address, `buf[0]` (R78). -/
def destAddr (s : State) : Byte := s.buf.read 0

/-- The first filter comparand, `buf[1]` (R78). -/
def comparand1 (s : State) : Byte := s.buf.read 1

/-- The second filter comparand, `buf[2]` (R78). -/
def comparand2 (s : State) : Byte := s.buf.read 2

/-- The source address, `buf[3]` (R78). -/
def sourceAddr (s : State) : Byte := s.buf.read 3

/-- `L = buf[4]` (R78). -/
def lengthByte (s : State) : Byte := s.buf.read 4

/-- Payload byte `q`, `buf[5 + q]` (R78). -/
def payloadByte (s : State) (q : Nat) : Byte := s.buf.read (Config.payloadBase + q)

/-- The byte count at which the pre-check runs, `6 + L`, `L` zero-extended to 9 bits (R78). -/
def precheckCount (len : Byte) : Count := 6 + len.setWidth 9

/-- The byte count at which the frame ends, `7 + L`, in 9 bits (R78). -/
def frameCount (len : Byte) : Count := 7 + len.setWidth 9

/-- The checksum byte, `buf[5 + L]` (R78). -/
def checksumByte (s : State) : Byte := s.buf.read (5 + s.len.toNat)

/-- The trailer, `buf[6 + L]` (R78). -/
def trailerByte (s : State) : Byte := s.buf.read (6 + s.len.toNat)

end Sys2Proof.Machine
end

