-- ==== Sys2Proof/Machine/Flags.lean ====
section
/-! DEFINITION. The status flags `OVF` and `SKIPC` (10_state.md R27, R28), the event, phase and field codes as bits
(R23, 30_encoding.md R74, R87), and the status words `STAT0` and `STAT1` (R33 to R35). -/

namespace Sys2Proof.Machine

/-- The flags and phase of a frame condemned by overflow: `OVF <- 1; SKIPC <- 0; PHASE <- SKIP` (R103). -/
def condemnOverflow (s : State) : State := { s with ovf := true, skipc := false, phase := .skip }

/-- The flags and phase of a frame condemned at the pre-check, with the accumulator reset:
`CSUM <- 0; SKIPC <- 1; PHASE <- SKIP` (R132). -/
def condemnMismatch (s : State) : State := { s with csum := 0, skipc := true, phase := .skip }

/-- The two bits of `PHASE` (R23). -/
def Phase.bits : Phase → BitVec 2
  | .idle => 0
  | .acc => 1
  | .skip => 2
  | .reserved => 3

/-- The code of an event (R74). -/
def Event.code : Event → BitVec 4
  | .noEvent => 0
  | .continuing => 1
  | .frameComplete => 2
  | .overflow => 3
  | .badCrc => 4
  | .badLength => 5
  | .skipEnd => 6
  | .abandon => 7
  | .heartbeat => 8
  | .resetDone => 9

/-- The code of a field value (R87). -/
def FieldCode.code : FieldCode → BitVec 4
  | .unknown => 0
  | .on => 1
  | .off => 2
  | .heat => 3
  | .cool => 4
  | .auto => 5
  | .fanOnly => 6
  | .low => 7
  | .medium => 8
  | .high => 9
  | .stopped => 10
  | .running => 11
  | .ok => 12
  | .temp => 13
  | .noField => 14
  | .fieldOor => 15

/-- `STAT0`'s bits, `(31:25) 0, (24:16) CNT, (15:8) CSUM, (7:4) 0, (3) SKIPC, (2) OVF, (1:0) PHASE` (R33). -/
def stat0Bits (s : State) : BitVec 32 :=
  (0 : BitVec 7) ++ s.cnt ++ s.csum ++ (0 : BitVec 4) ++ BitVec.ofBool s.skipc ++ BitVec.ofBool s.ovf ++ s.phase.bits

/-- `STAT1`'s bits, `(31:24) 0, (23:16) FILT_ADDR, (15:9) 0, (8) FILT_EN, (7:0) LEN` (R34). -/
def stat1Bits (s : State) : BitVec 32 :=
  (0 : BitVec 8) ++ s.filtAddr ++ (0 : BitVec 7) ++ BitVec.ofBool s.filtEn ++ s.len

/-- Reading `STAT0` on the status port: no side effect, no step (R35); unreadable before the first RESET (R220). -/
def stat0 (s : State) : Option (BitVec 32) := if s.booted then some (stat0Bits s) else none

/-- Reading `STAT1` on the status port (R34, R35, R220). -/
def stat1 (s : State) : Option (BitVec 32) := if s.booted then some (stat1Bits s) else none

end Sys2Proof.Machine
end

