-- ==== Sys2Proof/Machine/AddressFilter.lean ====
section
/-! DEFINITION. The address filter comparator (44_address_filter.md). -/

namespace Sys2Proof.Machine

/-- FILTER (R181): bytes 1 and 2 of the frame against `FILT_ADDR`, when a filter is set. -/
def filterPass (s : State) : Bool :=
  if s.filtEn = false then true
  else comparand1 s == s.filtAddr || comparand2 s == s.filtAddr

/-- `O.pass <- FILTER()` (R106, R132, R182). -/
def outputPass (s : State) : State := { s with out := { s.out with pass := filterPass s } }

end Sys2Proof.Machine
end

