-- ==== Sys2Proof/Machine/Checksum.lean ====
section
/-! DEFINITION. The checksum accumulator and validator (41_checksum.md). -/

namespace Sys2Proof.Machine

/-- The accumulator's sum: 8-bit wrap-around, no carry kept (R130). -/
def sumByte (csum b : Byte) : Byte := csum + b

/-- What the validator answers (R131). -/
inductive Verdict where
  | ok | mismatch
deriving DecidableEq, Repr

/-- VALIDATE (R131): a pure function of the accumulated sum. -/
def validate (v : Byte) : Verdict := if v = 0 then .ok else .mismatch

/-- The byte is summed and counted, in every phase: `CSUM <- (CSUM + b) mod 256; CNT <- n1` (R101, R130). -/
def countByte (b : Byte) (s : State) : State := { s with csum := sumByte s.csum b, cnt := s.cnt + 1 }

/-- `O.chk <- 1; O.acc <- CSUM` (R132). -/
def exposeCheck (s : State) : State := { s with out := { s.out with chk := true, acc := s.csum } }

/-- PRECHECK at byte count `n1` (R132): on a mismatch the frame is reported with its bytes and condemned; on `Ok` nothing
else changes. -/
def precheck (n1 : Count) (s : State) : State :=
  match validate s.csum with
  | .ok => exposeCheck s
  | .mismatch => condemnMismatch (outputPass (outputFrame n1 (raise .badCrc (exposeCheck s))))

end Sys2Proof.Machine
end

