-- ==== Sys2Proof/Machine/FieldExtractor.lean ====
section
/-! DEFINITION. The field extractor multiplexer and its eight decoders (43_field_extractor.md): F_NONE, F_OK, F_POWER,
F_MODE_SET, F_MODE_GET, F_FAN, F_STATUS, F_TEMP. -/

namespace Sys2Proof.Machine

/-! ### Select -/

/-- `FSEL_OF(hk)` (R86). -/
def fselOf : HandlerKind → FSel
  | .powerSet => .fPower
  | .powerSetAck => .fOk
  | .modeSet => .fModeSet
  | .modeSetAck => .fOk
  | .modeGet => .fNone
  | .modeGetAck => .fModeGet
  | .setpointSet => .fTemp
  | .setpointSetAck => .fOk
  | .setpointGet => .fNone
  | .setpointGetAck => .fTemp
  | .fanSet => .fFan
  | .fanSetAck => .fOk
  | .fanGet => .fNone
  | .fanGetAck => .fFan
  | .statusGet => .fNone
  | .statusGetAck => .fStatus
  | .tempGet => .fNone
  | .tempGetAck => .fTemp

/-- `WIDTH(fs)`: the number of payload bytes a decoder reads (R85). -/
def fieldWidth : FSel → Nat
  | .fNone => 0
  | .fOk => 0
  | .fPower => 1
  | .fModeSet => 1
  | .fModeGet => 1
  | .fFan => 1
  | .fStatus => 1
  | .fTemp => 2

/-- The field does not fit in the payload: `w > 0 and p + w > L` (R150, R152). -/
def fieldOutside (w p : Nat) (len : Byte) : Bool := decide (0 < w) && decide (len.toNat < p + w)

/-! ### Field codes of one payload byte -/

/-- F_POWER's code (R155). -/
def powerCode (x : Byte) : FieldCode := if x = 1 then .on else if x = 0 then .off else .unknown

/-- F_MODE_SET's code (R156): the set code space has no "fan only". -/
def modeSetCode (x : Byte) : FieldCode :=
  if x = 7 then .heat else if x = 8 then .cool else if x = 32 then .auto else .unknown

/-- F_MODE_GET's code (R157): the get code space has no "auto". -/
def modeGetCode (x : Byte) : FieldCode :=
  if x = 7 then .heat else if x = 8 then .cool else if x = 0x0D then .fanOnly else .unknown

/-- F_FAN's code (R158). -/
def fanCode (x : Byte) : FieldCode :=
  if x = 4 then .low else if x = 5 then .medium else if x = 6 then .high else if x = 0x0B then .auto else .unknown

/-- F_STATUS's code (R159). -/
def statusCode (x : Byte) : FieldCode := if x = 0 then .stopped else if x = 1 then .running else .unknown

/-! ### Temperature -/

/-- Tenths of a degree Celsius, in natural arithmetic; both nibbles of `t` are used as they stand (R160). -/
def celsiusTenths (a t : Byte) : Nat := a.toNat * 100 + (t.toNat / 16) * 10 + t.toNat % 16

/-- Tenths of a degree Fahrenheit, rounded to the nearest (R161). -/
def fahrenheitTenths (c10 : Nat) : Nat := (c10 * 18 + 3200 + 5) / 10

/-! ### The decoders as functions of the frame

Each answers the fields it decodes; a field it does not set is 0 (R73). -/

/-- What a decoder writes: `f_code`, `f_raw`, `c10`, `f10` (R73). -/
structure FieldOut where
  code : FieldCode
  raw  : Byte
  c10  : BitVec 16
  f10  : BitVec 16
deriving DecidableEq, Repr

/-- A field that is a code alone. -/
def FieldOut.ofCode (c : FieldCode) (raw : Byte) : FieldOut := ⟨c, raw, 0, 0⟩

/-- F_NONE reads no byte (R153). -/
def decodeNone : FieldOut := FieldOut.ofCode .noField 0

/-- F_OK reads no byte (R154). -/
def decodeOk : FieldOut := FieldOut.ofCode .ok 0

/-- F_POWER (R155). -/
def decodePower (p : Nat) (s : State) : FieldOut := FieldOut.ofCode (powerCode (payloadByte s p)) (payloadByte s p)

/-- F_MODE_SET (R156). -/
def decodeModeSet (p : Nat) (s : State) : FieldOut := FieldOut.ofCode (modeSetCode (payloadByte s p)) (payloadByte s p)

/-- F_MODE_GET (R157). -/
def decodeModeGet (p : Nat) (s : State) : FieldOut := FieldOut.ofCode (modeGetCode (payloadByte s p)) (payloadByte s p)

/-- F_FAN (R158). -/
def decodeFan (p : Nat) (s : State) : FieldOut := FieldOut.ofCode (fanCode (payloadByte s p)) (payloadByte s p)

/-- F_STATUS (R159). -/
def decodeStatus (p : Nat) (s : State) : FieldOut := FieldOut.ofCode (statusCode (payloadByte s p)) (payloadByte s p)

/-- F_TEMP (R160, R161): `a = F[5 + p]`, `t = F[6 + p]`. -/
def decodeTemp (p : Nat) (s : State) : FieldOut :=
  let a := payloadByte s p
  let c := celsiusTenths a (payloadByte s (p + 1))
  ⟨.temp, a, BitVec.ofNat 16 c, BitVec.ofNat 16 (fahrenheitTenths c)⟩

/-- `DECODE[fs](p)` (R150). -/
def decodeField (fs : FSel) (p : Nat) (s : State) : FieldOut :=
  match fs with
  | .fNone => decodeNone
  | .fOk => decodeOk
  | .fPower => decodePower p s
  | .fModeSet => decodeModeSet p s
  | .fModeGet => decodeModeGet p s
  | .fFan => decodeFan p s
  | .fStatus => decodeStatus p s
  | .fTemp => decodeTemp p s

/-- The selected decoder's fields, or FIELD_OOR when the field lies outside the payload (R150, R152). -/
def fieldOut (fs : FSel) (p : Nat) (s : State) : FieldOut :=
  if fieldOutside (fieldWidth fs) p s.len then FieldOut.ofCode .fieldOor 0 else decodeField fs p s

/-- Run one decoder: write `f_sel`, `f_code`, `f_raw`, `c10` and `f10`, and nothing else (R150 to R152, R170). -/
def runField (fs : FSel) (p : Offset) (s : State) : State :=
  let f := fieldOut fs p.toNat s
  { s with out := { s.out with fSel := fs, fCode := f.code, fRaw := f.raw, c10 := f.c10, f10 := f.f10 } }

/-- EXTRACT(hk, p) (R150, R151). -/
def extract (hk : HandlerKind) (p : Offset) (s : State) : State := runField (fselOf hk) p s

/-! ### The meanings of the eight decoder rows -/

/-- A decoder that reads payload bytes, at a legal offset (R83). -/
def execField (fs : FSel) (p : Offset) (s : State) : Host.Outcome State Fault Refusal :=
  whenRunning s (fun s => whenOffset p s (fun s => .next (runField fs p s)))

/-- F_NONE (R153): reads no byte; the code is NONE. -/
def execFNone (s : State) : Host.Outcome State Fault Refusal :=
  whenRunning s (fun s => .next (runField .fNone 0 s))

/-- F_OK (R154): reads no byte; the code is OK. -/
def execFOk (s : State) : Host.Outcome State Fault Refusal :=
  whenRunning s (fun s => .next (runField .fOk 0 s))

/-- F_POWER (R155). -/
def execFPower (p : Offset) (s : State) : Host.Outcome State Fault Refusal := execField .fPower p s

/-- F_MODE_SET (R156). -/
def execFModeSet (p : Offset) (s : State) : Host.Outcome State Fault Refusal := execField .fModeSet p s

/-- F_MODE_GET (R157). -/
def execFModeGet (p : Offset) (s : State) : Host.Outcome State Fault Refusal := execField .fModeGet p s

/-- F_FAN (R158). -/
def execFFan (p : Offset) (s : State) : Host.Outcome State Fault Refusal := execField .fFan p s

/-- F_STATUS (R159). -/
def execFStatus (p : Offset) (s : State) : Host.Outcome State Fault Refusal := execField .fStatus p s

/-- F_TEMP (R160, R161). -/
def execFTemp (p : Offset) (s : State) : Host.Outcome State Fault Refusal := execField .fTemp p s

end Sys2Proof.Machine
end

