-- ==== Sys2Proof/Machine/Matcher.lean ====
section
/-! DEFINITION. The command header pattern matcher (42_matcher.md). -/

namespace Sys2Proof.Machine

/-- The pattern positions from frame index `j` on: every one lies inside the frame of `n` bytes and its masked byte equals
the expected one (R141, R142). -/
def patMatches (m : Memory) (n : Nat) (j : Nat) (pat : List (Byte × Byte)) : Bool :=
  match pat with
  | [] => true
  | (mask, exp) :: rest => decide (j < n) && ((m.read j &&& mask) == exp) && patMatches m n (j + 1) rest

/-- ENTRY_MATCHES(e, F, n) (R141): the pattern is compared from frame index 4. -/
def entryMatches (m : Memory) (n : Nat) (e : Entry) : Bool := patMatches m n Config.patternBase e.pat

/-- The first entry that matches, in declared order, with its index, the table's first entry having index `j` (R143). -/
def firstMatch (m : Memory) (n : Nat) (j : Nat) (t : List Entry) : Option (Nat × Entry) :=
  match t with
  | [] => none
  | e :: rest => if entryMatches m n e then some (j, e) else firstMatch m n (j + 1) rest

/-- `O.m_hit <- 1; O.m_idx <- j; O.m_hk <- T[j].hk` (R143). -/
def outputHit (j : Nat) (e : Entry) (s : State) : State :=
  { s with out := { s.out with mHit := true, mIdx := BitVec.ofNat 5 j, mHk := e.hk.code } }

/-- UNRECOGNIZED (R144): not an error; the event stays FRAME_COMPLETE. -/
def unrecognized (s : State) : State :=
  { s with out := { s.out with mHit := false, mIdx := 0, mHk := 0, fSel := .fNone, fCode := .noField } }

/-- MATCH on a frame of `n` bytes (R143, R144): the first match selects the extraction. -/
def matchFrame (n : Nat) (s : State) : State :=
  match firstMatch s.buf n 0 s.table with
  | some (j, e) => extract e.hk e.p (outputHit j e s)
  | none => unrecognized s

end Sys2Proof.Machine
end

