-- ==== Sys2Proof/Machine/FrameAccumulator.lean ====
section
/-! DEFINITION. The frame accumulator's operations (40_frame_accumulator.md): NOP, BYTE with its sub-steps, TIMEOUT,
RESET. -/

namespace Sys2Proof.Machine

/-! ### NOP -/

/-- NOP (R100): no state is read or written; the record is all zero. -/
def execNop (s : State) : Host.Outcome State Fault Refusal :=
  whenRunning s (fun s => .next (clearOut s))

/-! ### The sub-steps of BYTE -/

/-- FRAME_START (R102): in IDLE the byte is the first of a new frame. -/
def frameStart (s : State) : State :=
  if s.phase = .idle then
    { s with cnt := 0, csum := 0, len := 0, ovf := false, skipc := false, phase := .acc }
  else s

/-- The buffer index a BYTE of frame index `n` is stored at in phase ACC: `n` if the buffer has room (R51, R103). -/
def storeIndex (n : Count) : Option Nat := if n.toNat < Config.bufCap then some n.toNat else none

/-- STORE_OR_OVERFLOW (R103). -/
def storeOrOverflow (n : Count) (b : Byte) (s : State) : State :=
  match storeIndex n with
  | some i => { s with buf := s.buf.write i b }
  | none => raise .overflow (condemnOverflow s)

/-- The length latch (R104). -/
def latchLength (n : Count) (b : Byte) (s : State) : State := if n = 4 then { s with len := b } else s

/-- `O.acc <- CSUM` at completion: reported, not validated (R106, R133). -/
def attachSum (s : State) : State := { s with out := { s.out with acc := s.csum } }

/-- COMPLETE up to the end of the frame (R106): the event, the accumulator, the frame's bytes, the filter and the match. -/
def completeReport (n1 : Count) (s : State) : State :=
  matchFrame n1.toNat (outputPass (outputFrame n1 (attachSum (raise .frameComplete s))))

/-- COMPLETE (R106). -/
def complete (n1 : Count) (s : State) : State := frameEndClear (markFrameEnd (completeReport n1 s))

/-- CONTINUING: a BYTE that raised no other event (R109). -/
def continuing (s : State) : State := if s.out.ev = .noEvent then raise .continuing s else s

/-- SKIP_END (R108): an OVERFLOW raised by this same byte is kept. -/
def skipEnd (s : State) : State :=
  frameEndClear (markFrameEnd (if s.out.ev = .noEvent then raise .skipEnd s else s))

/-- BYTE's sub-steps in phase ACC up to the pre-check, for the byte `b` of frame index `n`: store or overflow, length
latch, pre-check, each guarded by the phase when it is reached (R101, R208). -/
def accumulate (n : Count) (b : Byte) (s : State) : State :=
  let s := if s.phase = .acc then storeOrOverflow n b s else s
  let s := if s.phase = .acc then latchLength n b s else s
  if s.phase = .acc ∧ 5 ≤ n + 1 ∧ n + 1 = precheckCount s.len then precheck (n + 1) s else s

/-- BYTE's last sub-steps: completion, skip end, continuing (R101). -/
def conclude (n1 : Count) (s : State) : State :=
  if s.phase = .acc ∧ 5 ≤ n1 ∧ n1 = frameCount s.len then complete n1 s
  else if s.phase = .skip ∧ n1 = frameCount s.len then skipEnd s
  else continuing s

/-- BYTE's state transition (R101). -/
def byteStep (b : Byte) (s : State) : State :=
  let s := frameStart (clearOut s)
  let n := s.cnt
  conclude (n + 1) (accumulate n b (countByte b s))

/-- BYTE b (R101). -/
def execByte (b : Byte) (s : State) : Host.Outcome State Fault Refusal :=
  whenRunning s (fun s => .next (byteStep b s))

/-! ### TIMEOUT -/

/-- `O.sep <- 1` (R111). -/
def markSeparator (s : State) : State := { s with out := { s.out with sep := true } }

/-- TIMEOUT's state transition (R111): a heartbeat in IDLE; otherwise the partial frame is abandoned. -/
def timeoutStep (s : State) : State :=
  let s := markSeparator (clearOut s)
  if s.phase = .idle then raise .heartbeat s
  else frameEndClear (markFrameEnd (raise .abandon s))

/-- TIMEOUT (R111). -/
def execTimeout (s : State) : Host.Outcome State Fault Refusal :=
  whenRunning s (fun s => .next (timeoutStep s))

/-! ### RESET -/

/-- RESET's state transition (R112): a partial frame is dropped with no output and the filter configuration latched. It is
the one operation that is legal before the first RESET (R220). -/
def resetStep (en : Bool) (addr : Byte) (s : State) : State :=
  raise .resetDone
    { frameEndClear (clearOut s) with filtEn := en, filtAddr := addr, booted := true }

/-- RESET with the configuration port carrying `en` and `addr` (R112). -/
def execReset (en : Bool) (addr : Byte) (s : State) : Host.Outcome State Fault Refusal :=
  whenBuilt s (fun s => .next (resetStep en addr s))

end Sys2Proof.Machine
end

