-- ==== Sys2Proof/Machine/Dispatch.lean ====
section
/-! DEFINITION. One arm per row of spec/opcode_table.json. -/

namespace Sys2Proof.Machine

def exec (i : Instr) (s : State) : Host.Outcome State Fault Refusal :=
  match i with
  | .nop => Sys2Proof.Machine.execNop s
  | .byte b => Sys2Proof.Machine.execByte b s
  | .timeout => Sys2Proof.Machine.execTimeout s
  | .reset cfgFiltEn cfgFiltAddr => Sys2Proof.Machine.execReset cfgFiltEn cfgFiltAddr s
  | .fNone => Sys2Proof.Machine.execFNone s
  | .fOk => Sys2Proof.Machine.execFOk s
  | .fPower p => Sys2Proof.Machine.execFPower p s
  | .fModeSet p => Sys2Proof.Machine.execFModeSet p s
  | .fModeGet p => Sys2Proof.Machine.execFModeGet p s
  | .fFan p => Sys2Proof.Machine.execFFan p s
  | .fStatus p => Sys2Proof.Machine.execFStatus p s
  | .fTemp p => Sys2Proof.Machine.execFTemp p s

end Sys2Proof.Machine
end

