-- ==== Sys2Proof/Machine/Fetch.lean ====
section
/-! DEFINITION. What is presented to the block in its next step (00_scope.md R11, 10_state.md R21): the next operation of
the driver, or the multiplexer's select lines when they are driven directly (log 2, log 4). -/

namespace Sys2Proof.Machine

/-- The word presented next and the state in which its step begins: the word is consumed and the output record is all
zero (R73). `none` when nothing is presented. -/
def fetch (s : State) : Option (PortWord × State) :=
  match s.probe with
  | some w => some (.sel w, clearOut { s with probe := none })
  | none =>
    match s.inputs with
    | [] => none
    | w :: ws => some (.op w, clearOut { s with inputs := ws })

/-- The refusal of a word the decoder rejects: only a select word with an illegal offset is (R70, R83). -/
def refuseWord (_e : DecodeError) : Host.Outcome State Fault Refusal := .refused .illegalPayloadOffset

/-- The step of the word presented (R11). -/
def runWord (w : PortWord) (s : State) : Host.Outcome State Fault Refusal :=
  match decode w with
  | .ok i => exec i s
  | .error e => refuseWord e

/-- Present a word of either port as the next one. -/
def present (w : PortWord) (s : State) : State :=
  match w with
  | .op w => { s with probe := none, inputs := w :: s.inputs }
  | .sel w => { s with probe := some w }

end Sys2Proof.Machine
end

