-- ==== Sys2Proof/Machine/Step.lean ====
section
/-! DEFINITION. One step of the machine (00_scope.md R11). -/

namespace Sys2Proof.Machine

/-- One operation, in the order the driver presents them (R11, R60). When none is presented the block holds its state:
"a NOP or no operation at all changes nothing" (R213). -/
def step (s : State) : Host.Outcome State Fault Refusal :=
  match fetch s with
  | none => .next s
  | some (w, s') => runWord w s'

/-- `s` with the instruction of the opcode table's word `w` presented next; the bits above `nbits` are 0 (log 5). -/
def State.withFetchWord (s : State) (nbits w : Nat) : State := present (PortWord.ofBits nbits (w % 2 ^ nbits)) s

end Sys2Proof.Machine
end

