-- ==== Sys2Proof/Machine/Assembler.lean ====
section
/-! DEFINITION. Operation streams and their text (30_encoding.md R89, R90): the assembler's operations, the
pseudo-operations FRAME, FRAMECS and FRAMEBAD, and the syntax of a line. The block never sees any of it (R90). -/

namespace Sys2Proof.Machine

/-- A line of an operation stream (R89, R90), its numbers as written. -/
inductive AsmLine where
  | nop
  | byte (b : Nat)
  | timeout
  | reset (filt : Option Nat)
  | frame (bs : List Nat)
  | frameCs (d u1 u2 s : Nat) (q : List Nat) (t : Nat)
  | frameBad (d u1 u2 s : Nat) (q : List Nat) (t delta : Nat)
deriving DecidableEq, Repr

/-- The checksum byte `(256 - (sum mod 256)) mod 256` of the bytes before it (R90, R136). -/
def checksumFor (bs : List Nat) : Nat := (256 - bs.sum % 256) % 256

/-- The operation word of `BYTE b` (R89), the configuration port driven to 0. -/
def byteWord (b : Byte) : OpWord := ⟨(1 : BitVec 2) ++ b, false, 0⟩

/-- The operation words of bytes written as numbers; an operand outside 0..255 is refused (R89, X24). -/
def byteWords (bs : List Nat) : Option (List OpWord) :=
  if bs.all (fun b => decide (b < 256)) then some (bs.map (fun b => byteWord (BitVec.ofNat 8 b))) else none

/-- FRAMECS's bytes, with `delta` added to the checksum byte (R90): `delta = 0` for FRAMECS itself. -/
def framedBytes (d u1 u2 s : Nat) (q : List Nat) (t delta : Nat) : List Nat :=
  let head := [d, u1, u2, s, q.length] ++ q
  head ++ [(checksumFor head + delta) % 256, t]

/-- FRAMECS and FRAMEBAD (R90): `L` is the number of payload bytes listed, 0..255. -/
def framedWords (d u1 u2 s : Nat) (q : List Nat) (t delta : Nat) : Option (List OpWord) :=
  if q.length < 256 then byteWords (framedBytes d u1 u2 s q t delta) else none

/-- The operation words a line stands for (R89, R90). -/
def assembleLine : AsmLine → Option (List OpWord)
  | .nop => some [⟨0x000, false, 0⟩]
  | .byte b => byteWords [b]
  | .timeout => some [⟨0x200, false, 0⟩]
  | .reset none => some [⟨0x300, false, 0⟩]
  | .reset (some a) => if a < 256 then some [⟨0x300, true, BitVec.ofNat 8 a⟩] else none
  | .frame bs => byteWords bs
  | .frameCs d u1 u2 s q t => framedWords d u1 u2 s q t 0
  | .frameBad d u1 u2 s q t delta => if 1 ≤ delta ∧ delta < 256 then framedWords d u1 u2 s q t delta else none

/-! ### Text -/

/-- A token of a line: a mnemonic or `FILT`, a number (R9), or a separator. -/
inductive Token where
  | name (cs : List Char)
  | num (n : Nat)
  | open_ | close | comma | equals
deriving DecidableEq, Repr

/-- An upper-case letter for a lower-case one: mnemonics are case-insensitive (R89). -/
def upperChar (c : Char) : Char :=
  if 97 ≤ c.toNat ∧ c.toNat ≤ 122 then Char.ofNat (c.toNat - 32) else c

/-- A digit's value in base at most 16, of a character already in upper case. -/
def digitValue (c : Char) : Option Nat :=
  let n := c.toNat
  if 48 ≤ n ∧ n ≤ 57 then some (n - 48) else if 65 ≤ n ∧ n ≤ 70 then some (n - 55) else none

/-- Read digits in a base, onto the value read so far. -/
def readDigits (base : Nat) (v : Nat) : List Char → Option Nat
  | [] => some v
  | c :: cs =>
    match digitValue c with
    | some d => if d < base then readDigits base (v * base + d) cs else none
    | none => none

/-- A number (R9): `0x` prefixes hexadecimal, a bare number is decimal. -/
def readNumber : List Char → Option Nat
  | '0' :: 'X' :: c :: cs => readDigits 16 0 (c :: cs)
  | [] => none
  | cs => readDigits 10 0 cs

/-- The token of a run of characters, in upper case: a number if it begins with a digit. -/
def runToken (cs : List Char) : Option Token :=
  match cs with
  | [] => none
  | c :: _ => if 48 ≤ c.toNat ∧ c.toNat ≤ 57 then (readNumber cs).map Token.num else some (.name cs)

/-- The separator a character is, if it is one. -/
def separatorToken (c : Char) : Option Token :=
  if c = '(' then some .open_ else if c = ')' then some .close
  else if c = ',' then some .comma else if c = '=' then some .equals else none

/-- End the run of characters read so far (`cur`, the last one first), before tokens `rest`. -/
def endRun (cur : List Char) (rest : Option (List Token)) : Option (List Token) :=
  match cur with
  | [] => rest
  | _ =>
    match runToken cur.reverse, rest with
    | some t, some ts => some (t :: ts)
    | _, _ => none

/-- The tokens of a line: blanks separate, and a `;` starts a comment (R89). -/
def tokens (cur : List Char) : List Char → Option (List Token)
  | [] => endRun cur (some [])
  | c :: cs =>
    if c = ';' then endRun cur (some [])
    else if c = ' ' ∨ c = '\t' ∨ c = '\r' then endRun cur (tokens [] cs)
    else
      match separatorToken c with
      | some t => endRun cur ((tokens [] cs).map (t :: ·))
      | none => tokens (upperChar c :: cur) cs

/-- Numbers separated by commas. -/
def numberList : List Token → Option (List Nat)
  | [.num n] => some [n]
  | .num n :: .comma :: rest => (numberList rest).map (n :: ·)
  | _ => none

/-- The numbers up to a closing parenthesis, and the tokens after it. -/
def payloadList (acc : List Token) : List Token → Option (List Nat × List Token)
  | [] => none
  | .close :: rest =>
    if acc = [] then some ([], rest) else (numberList acc.reverse).map (fun q => (q, rest))
  | t :: rest => payloadList (t :: acc) rest

/-- The four address bytes and the payload of FRAMECS and FRAMEBAD, and the tokens after it. -/
def framedOperands : List Token → Option ((Nat × Nat × Nat × Nat) × List Nat × List Token)
  | .num d :: .comma :: .num u1 :: .comma :: .num u2 :: .comma :: .num s :: .comma :: .open_ :: rest =>
    (payloadList [] rest).map (fun qr => ((d, u1, u2, s), qr.1, qr.2))
  | _ => none

/-- FRAMECS's operands (R90). -/
def parseFrameCs (ts : List Token) : Option AsmLine :=
  match framedOperands ts with
  | some ((d, u1, u2, s), q, [.comma, .num t]) => some (.frameCs d u1 u2 s q t)
  | _ => none

/-- FRAMEBAD's operands (R90). -/
def parseFrameBad (ts : List Token) : Option AsmLine :=
  match framedOperands ts with
  | some ((d, u1, u2, s), q, [.comma, .num t, .comma, .num delta]) => some (.frameBad d u1 u2 s q t delta)
  | _ => none

/-- RESET's operand (R89). -/
def parseReset : List Token → Option AsmLine
  | [] => some (.reset none)
  | [.name f, .equals, .num a] => if f = ['F', 'I', 'L', 'T'] then some (.reset (some a)) else none
  | _ => none

/-- A line's operation (R89, R90); a line with no token is blank. -/
def parseTokens (ts : List Token) : Option (Option AsmLine) :=
  match ts with
  | [] => some none
  | .name m :: rest =>
    if m = ['N', 'O', 'P'] then (if rest = [] then some (some .nop) else none)
    else if m = ['T', 'I', 'M', 'E', 'O', 'U', 'T'] then (if rest = [] then some (some .timeout) else none)
    else if m = ['B', 'Y', 'T', 'E'] then
      (match rest with
        | [.num b] => some (some (.byte b))
        | _ => none)
    else if m = ['R', 'E', 'S', 'E', 'T'] then (parseReset rest).map some
    else if m = ['F', 'R', 'A', 'M', 'E'] then (numberList rest).map (fun bs => some (.frame bs))
    else if m = ['F', 'R', 'A', 'M', 'E', 'C', 'S'] then (parseFrameCs rest).map some
    else if m = ['F', 'R', 'A', 'M', 'E', 'B', 'A', 'D'] then (parseFrameBad rest).map some
    else none
  | _ => none

/-- The operation words of one line of text; a blank line stands for none. -/
def assembleText (line : List Char) : Option (List OpWord) :=
  match tokens [] line with
  | none => none
  | some ts =>
    match parseTokens ts with
    | none => none
    | some none => some []
    | some (some l) => assembleLine l

/-- The operation words of a stream of lines, one operation per line (R89). -/
def assemble : List (List Char) → Option (List OpWord)
  | [] => some []
  | l :: ls =>
    match assembleText l, assemble ls with
    | some ws, some rest => some (ws ++ rest)
    | _, _ => none

end Sys2Proof.Machine
end

