-- ==== Sys2Proof/Machine/Rendering.lean ====
section
/-! DEFINITION. The correspondence between the block's codes and the rendered text (43_field_extractor.md R171,
44_address_filter.md R182, R184). The renderer is outside the block (00_scope.md R6): no step calls this file. The
literals the source does not give are parameters (X7, X10). -/

namespace Sys2Proof.Machine

/-- The renderer's parameters: the texts the source does not give (X7, N28, N29: the markers, and the text for POWER_SET with
OFF) and `FILTER_DIAG` (R182, D18). -/
structure RenderParams where
  unknownField : String
  unknownFrame : String
  badCrc       : String
  overflow     : String
  powerSetOff  : String
  filterDiag   : Bool
deriving DecidableEq, Repr

/-- A number of tenths to one decimal place: `v div 10`, a point, `v mod 10` (R160). -/
def tenthsText (v : Nat) : String := toString (v / 10) ++ "." ++ toString (v % 10)

/-- One hexadecimal digit, upper case. -/
def hexDigit (n : Nat) : Char := if n < 10 then Char.ofNat (48 + n) else Char.ofNat (55 + n)

/-- A byte as two-digit upper-case hex (R171). -/
def hexByte (b : Byte) : String := String.ofList [hexDigit (b.toNat / 16), hexDigit (b.toNat % 16)]

/-- Bytes as two-digit upper-case hex, space-separated (R171). -/
def hexBytes : List Byte → String
  | [] => ""
  | [b] => hexByte b
  | b :: bs => hexByte b ++ " " ++ hexBytes bs

/-- The text of a decoded field (R171); `none` for a code the correspondence gives no text for. -/
def fieldText (r : RenderParams) (o : OutRecord) : Option String :=
  match o.fCode with
  | .low => some "low"
  | .medium => some "medium"
  | .high => some "high"
  | .auto => some "auto"
  | .on => some (if o.mHk = HandlerKind.powerSet.code then "turn on" else "on")
  | .off => some (if o.mHk = HandlerKind.powerSet.code then r.powerSetOff else "off")
  | .heat => some "heat"
  | .cool => some "cool"
  | .fanOnly => some "fan only"
  | .stopped => some "stopped"
  | .running => some "running"
  | .ok => some "ok"
  | .unknown => some r.unknownField
  | .temp => some (tenthsText o.c10.toNat ++ " deg C, " ++ tenthsText o.f10.toNat ++ " deg F")
  | .noField => none
  | .fieldOor => none

/-- The text of a step's record (R171): the "unknown" marker instead of decoded fields when no entry matched, the bad-CRC
marker and the frame's bytes, the overflow marker. -/
def renderText (r : RenderParams) (o : OutRecord) : Option String :=
  match o.ev with
  | .frameComplete => if o.mHit then fieldText r o else some r.unknownFrame
  | .badCrc => some (r.badCrc ++ " " ++ hexBytes (o.frame.take o.flen.toNat))
  | .overflow => some r.overflow
  | _ => none

/-- Whether the renderer writes a line for a record (R184): nothing for a completed frame that fails the filter; whether a
bad-CRC line of a filtered frame is suppressed is `FILTER_DIAG` (R182), true for suppressed (log 18). DESIGN CHOICE (log 21):
an overflow line is always shown, whatever `FILTER_DIAG` is; N30 and X10 leave that open too. -/
def lineShown (r : RenderParams) (o : OutRecord) : Bool :=
  match o.ev with
  | .frameComplete => o.pass
  | .badCrc => o.pass || !r.filterDiag
  | .overflow => true
  | _ => false

end Sys2Proof.Machine
end

