-- ==== Sys2Proof/Safety.lean ====
section
/-! DEFINITION. What counts as a safe run, in the terms claims use: a block that is running, the block's invariants
(10_state.md R37 to R39) and what an output record may hold (30_encoding.md R73, R75; 43_field_extractor.md R162). -/

namespace Sys2Proof.Machine

/-- The block was built with a well-formed table (R8), has been RESET (R220) and its `PHASE` is not 0b11 (R23): the
condition under which every instruction is legal (R209). -/
abbrev State.Running (s : State) : Prop := tableWf s.table = true ∧ s.booted = true ∧ s.phase ≠ .reserved

/-- The 8-bit sum of frame bytes `0 .. n-1` (R12, R130). -/
def frameSum (m : Memory) : Nat → Byte
  | 0 => 0
  | n + 1 => frameSum m n + m.read n

/-- The entry predicate in the spec's own form (R141, R142): every pattern position lies inside the frame of `n` bytes
and its masked byte equals the expected one. -/
abbrev EntryDescribes (m : Memory) (n : Nat) (e : Entry) : Prop :=
  ∀ (i : Nat) (h : i < e.pat.length), 4 + i < n ∧ m.read (4 + i) &&& (e.pat[i]).1 = (e.pat[i]).2

/-- `bs` is a whole frame with declared length `L`: `7 + L` bytes, byte 4 is `L` (R76). -/
abbrev IsFrame (L : Byte) (bs : List Byte) : Prop := bs.length = 7 + L.toNat ∧ bs[4]? = some L

/-- `k` operations in the order they are presented (R11), stopping where a step stops. It is `core.run` on the model's own
types. -/
def run : Nat → State → Host.Outcome State Fault Refusal
  | 0, s => .next s
  | k + 1, s =>
    match step s with
    | .next t => run k t
    | stop => stop

/-- A running block in IDLE, with a canonical buffer, about to be presented with the bytes `bs` back to back and then the
operations `rest`. -/
abbrev State.Fed (s : State) (bs : List Byte) (rest : List OpWord) : Prop :=
  s.Running ∧ s.phase = .idle ∧ s.buf.wf = true ∧ s.probe = none ∧ s.inputs = bs.map byteWord ++ rest

/-- What an output record may hold: 27 frame bytes, at most 27 of them valid and 0 above (R73); no reserved event (R75);
temperatures in range (R162). -/
abbrev OutRecord.Legal (o : OutRecord) : Prop :=
  o.frame.length = Config.bufCap ∧ o.flen.toNat ≤ Config.bufCap ∧
  (∀ i, i < Config.bufCap → o.flen.toNat ≤ i → o.frame[i]? = some 0) ∧
  o.ev ≠ .badLength ∧ o.c10.toNat ≤ 25665 ∧ o.f10.toNat ≤ 46517

/-- The invariant of IDLE (R37). -/
abbrev State.IdleInv (s : State) : Prop :=
  s.cnt = 0 ∧ s.csum = 0 ∧ s.len = 0 ∧ s.ovf = false ∧ s.skipc = false

/-- The invariant of ACC (R38, R26), with the accumulator's meaning (R25, R132): `CSUM` is the sum of the bytes held, and
it is 0 once the pre-check has passed. -/
abbrev State.AccInv (s : State) : Prop :=
  1 ≤ s.cnt.toNat ∧ s.cnt.toNat ≤ Config.bufCap ∧ s.ovf = false ∧ s.skipc = false ∧
  s.csum = frameSum s.buf s.cnt.toNat ∧
  (s.cnt.toNat < 5 → s.len = 0) ∧
  (5 ≤ s.cnt.toNat → s.len = lengthByte s ∧ s.cnt.toNat ≤ 6 + s.len.toNat) ∧
  (s.cnt.toNat = 6 + s.len.toNat → s.csum = 0)

/-- The invariant of SKIP (R39). -/
abbrev State.SkipInv (s : State) : Prop :=
  6 ≤ s.cnt.toNat ∧ s.cnt.toNat < 7 + s.len.toNat ∧ s.len = lengthByte s ∧ s.ovf = !s.skipc

/-- The invariant of the phase the block is in (R37 to R39); 0b11 is never held (R23). -/
def State.PhaseInv (s : State) : Prop :=
  match s.phase with
  | .idle => s.IdleInv
  | .acc => s.AccInv
  | .skip => s.SkipInv
  | .reserved => False

/-- The invariant every step keeps: the buffer is in its canonical form with indexes 0..26, the record is legal, and once
the block has been RESET the phase's invariant holds. -/
def State.Inv (s : State) : Prop :=
  s.buf.wf = true ∧ s.out.Legal ∧ (s.booted = true → s.PhaseInv)

end Sys2Proof.Machine
end

