-- ==== Sys2Proof/Certificates/Slice0/Obligations.lean ====
section
/-! DEFINITION. The statements for the provers. Each docstring names the rule of spec/ it formalises. -/

open Sys2Proof Sys2Proof.Machine

/-! ### NOP, TIMEOUT, RESET and the guards -/

/-- R100, and R72 for its DATA bits: NOP reads and writes no state; its record is all zero. -/
def Obligations.NopOnlyClearsTheRecord : Prop :=
  ∀ (w : OpWord) (s : State), s.Running → w.opw.extractLsb' 8 2 = 0 →
    decodeOp w = .nop ∧ exec .nop s = .next { s with out := OutRecord.zero }

/-- R111: a TIMEOUT in IDLE is a heartbeat; in ACC or SKIP it abandons the partial frame. -/
def Obligations.TimeoutIsHeartbeatOrAbandon : Prop :=
  ∀ (w : OpWord) (s : State), s.Running → w.opw.extractLsb' 8 2 = 2 →
    decodeOp w = .timeout ∧
    exec .timeout s = .next
      (if s.phase = .idle then { s with out := { OutRecord.zero with ev := .heartbeat, sep := true } }
       else { s with
                phase := .idle, cnt := 0, csum := 0, len := 0, ovf := false, skipc := false
                out := { OutRecord.zero with ev := .abandon, sep := true, fend := true } })

/-- R112: RESET, legal in every phase and before the first RESET, clears the frame state and latches the configuration
port. The block need not be running: no phase and no boot is asked for. -/
def Obligations.ResetClearsAndLatches : Prop :=
  ∀ (w : OpWord) (s : State), tableWf s.table = true → w.opw.extractLsb' 8 2 = 3 →
    decodeOp w = .reset w.cfgFiltEn w.cfgFiltAddr ∧
    exec (.reset w.cfgFiltEn w.cfgFiltAddr) s = .next
      { s with
          phase := .idle, cnt := 0, csum := 0, len := 0, ovf := false, skipc := false
          filtEn := w.cfgFiltEn, filtAddr := w.cfgFiltAddr, booted := true
          out := { OutRecord.zero with ev := .resetDone } }

/-- R41, R33, R34: after a RESET both status words have the values of that RESET. -/
def Obligations.StatusWordsAfterReset : Prop :=
  ∀ (en : Bool) (addr : Byte) (s : State), tableWf s.table = true →
    ∃ t, exec (.reset en addr) s = .next t ∧ stat0 t = some 0 ∧
      stat1 t = some ((0 : BitVec 8) ++ addr ++ (0 : BitVec 7) ++ BitVec.ofBool en ++ (0 : BitVec 8))

/-- R220: before the first RESET NOP, BYTE and TIMEOUT are refused and the status words are unreadable. -/
def Obligations.RefusedBeforeFirstReset : Prop :=
  ∀ (s : State) (b : Byte), tableWf s.table = true → s.booted = false →
    exec .nop s = .refused .beforeFirstReset ∧ exec (.byte b) s = .refused .beforeFirstReset ∧
    exec .timeout s = .refused .beforeFirstReset ∧ stat0 s = none ∧ stat1 s = none

/-- R8: when a command table is well formed. The second clause is the model's choice (log 11): R8 refuses an ill-formed table
when the model is built, and here the refusal is made at the instruction, RESET too. -/
def Obligations.IllFormedTableHasNoMeaning : Prop :=
  ∀ (s : State),
    (tableWf s.table = true ↔
      s.table.length ≤ 32 ∧
      ∀ e ∈ s.table, e.pat.length ≤ 23 ∧ 1 ≤ e.hk.code.toNat ∧ e.hk.code.toNat ≤ 18 ∧ e.p.toNat ≤ 19) ∧
    (tableWf s.table = false → ∀ i, exec i s = .refused .illFormedTable)

/-- A block whose `PHASE` is 0b11, a value that is never held (R23, X14), faults on every instruction but RESET. The fault is
the model's choice (log 10). -/
def Obligations.ReservedPhaseFaults : Prop :=
  ∀ (s : State) (i : Instr), tableWf s.table = true → s.booted = true → s.phase = .reserved →
    (∀ en addr, i ≠ .reset en addr) → exec i s = .fault .reservedPhase

/-! ### BYTE -/

/-- R102: in IDLE the byte is the first of a new frame, of frame index 0. -/
def Obligations.FirstByteStartsTheFrame : Prop :=
  ∀ (s : State) (b : Byte), s.Running → s.phase = .idle →
    exec (.byte b) s = .next
      { s with
          phase := .acc, cnt := 1, csum := b, len := 0, ovf := false, skipc := false
          buf := s.buf.write 0 b
          out := { OutRecord.zero with ev := .continuing } }

/-- R101, R103, R104, R109: in ACC, with room, a byte whose count is neither `6 + L` nor `7 + L` is stored at `CNT`,
counted and summed; the byte of frame index 4 becomes `LEN`. -/
def Obligations.ByteIsStoredCountedAndSummed : Prop :=
  ∀ (s : State) (b L : Byte), s.Running → s.phase = .acc → s.cnt.toNat < 27 →
    L = (if s.cnt.toNat = 4 then b else s.len) →
    (4 ≤ s.cnt.toNat → s.cnt.toNat + 1 ≠ 6 + L.toNat ∧ s.cnt.toNat + 1 ≠ 7 + L.toNat) →
    exec (.byte b) s = .next
      { s with
          cnt := s.cnt + 1, csum := s.csum + b, len := L
          buf := s.buf.write s.cnt.toNat b
          out := { OutRecord.zero with ev := .continuing } }

/-- R104: the byte of frame index 4 is latched as the declared length, whatever its value. -/
def Obligations.LengthIsLatchedAtIndexFour : Prop :=
  ∀ (s : State) (b : Byte), s.Running → s.phase = .acc → s.cnt.toNat = 4 →
    ∃ t, exec (.byte b) s = .next t ∧ t.len = b ∧ t.phase = .acc ∧ t.cnt.toNat = 5 ∧
      (s.buf.wf = true → lengthByte t = b)

/-- R132: the pre-check at byte count `6 + LEN`: on a zero sum it is only exposed; otherwise the frame is reported through
its checksum byte and condemned. -/
def Obligations.PrecheckAtSixPlusL : Prop :=
  ∀ (s : State) (b : Byte), s.Running → s.phase = .acc → s.cnt.toNat < 27 →
    s.cnt.toNat + 1 = 6 + s.len.toNat →
    exec (.byte b) s = .next
      (if s.csum + b = 0 then
        { s with
            cnt := s.cnt + 1, csum := 0, buf := s.buf.write s.cnt.toNat b
            out := { OutRecord.zero with ev := .continuing, chk := true, acc := 0 } }
      else
        { s with
            phase := .skip, cnt := s.cnt + 1, csum := 0, skipc := true, buf := s.buf.write s.cnt.toNat b
            out :=
              { OutRecord.zero with
                  ev := .badCrc, chk := true, acc := s.csum + b
                  flen := BitVec.ofNat 5 (6 + s.len.toNat)
                  frame := frameBytes (s.buf.write s.cnt.toNat b) (6 + s.len.toNat)
                  pass := filterPass { s with buf := s.buf.write s.cnt.toNat b } } })

/-- R106: at byte count `7 + LEN` in ACC the frame completes: its event, accumulator, bytes and filter bit are output and
the frame state is cleared. (The match fields: `FirstMatchWins`, `UnmatchedFrameIsUnrecognized`.) -/
def Obligations.FrameCompletesAtSevenPlusL : Prop :=
  ∀ (s : State) (b : Byte), s.Running → s.phase = .acc → s.cnt.toNat < 27 →
    s.cnt.toNat + 1 = 7 + s.len.toNat →
    ∃ t, exec (.byte b) s = .next t ∧
      t = { s with
              phase := .idle, cnt := 0, csum := 0, len := 0, ovf := false, skipc := false
              buf := s.buf.write s.cnt.toNat b, out := t.out } ∧
      t.out.ev = .frameComplete ∧ t.out.fend = true ∧ t.out.sep = false ∧ t.out.chk = false ∧
      t.out.acc = s.csum + b ∧ t.out.flen.toNat = 7 + s.len.toNat ∧
      t.out.frame = frameBytes (s.buf.write s.cnt.toNat b) (7 + s.len.toNat) ∧
      t.out.pass = filterPass { s with buf := s.buf.write s.cnt.toNat b }

/-- R103, R108, R202: the byte that finds the buffer full overflows the frame: only the event is reported, the byte is
counted and summed and not stored; if it is the frame's last byte the frame ends at once. -/
def Obligations.FullBufferOverflows : Prop :=
  ∀ (s : State) (b : Byte), s.Running → s.phase = .acc → 27 ≤ s.cnt.toNat →
    exec (.byte b) s = .next
      (if s.cnt.toNat + 1 = 7 + s.len.toNat then
        { s with
            phase := .idle, cnt := 0, csum := 0, len := 0, ovf := false, skipc := false
            out := { OutRecord.zero with ev := .overflow, fend := true } }
      else
        { s with
            phase := .skip, cnt := s.cnt + 1, csum := s.csum + b, ovf := true, skipc := false
            out := { OutRecord.zero with ev := .overflow } })

/-- R107, R108: in SKIP a byte is only counted and summed; at count `7 + LEN` the skipped frame ends. -/
def Obligations.SkippedBytesAreOnlyCounted : Prop :=
  ∀ (s : State) (b : Byte), s.Running → s.phase = .skip →
    exec (.byte b) s = .next
      (if s.cnt.toNat + 1 = 7 + s.len.toNat then
        { s with
            phase := .idle, cnt := 0, csum := 0, len := 0, ovf := false, skipc := false
            out := { OutRecord.zero with ev := .skipEnd, fend := true } }
      else
        { s with
            cnt := s.cnt + 1, csum := s.csum + b
            out := { OutRecord.zero with ev := .continuing } })

/-- R116: every BYTE step of a running block completes with exactly one of its five events, and ends the frame exactly on
the steps named. -/
def Obligations.ByteRaisesOneEvent : Prop :=
  ∀ (s : State) (b : Byte), s.Running →
    ∃ t, exec (.byte b) s = .next t ∧
      (t.out.ev = .continuing ∨ t.out.ev = .overflow ∨ t.out.ev = .badCrc ∨ t.out.ev = .frameComplete ∨
        t.out.ev = .skipEnd) ∧
      (t.out.fend = true ↔
        t.out.ev = .frameComplete ∨ t.out.ev = .skipEnd ∨
          (t.out.ev = .overflow ∧ s.cnt.toNat + 1 = 7 + s.len.toNat))

/-- R115: OVERFLOW and BAD_CRC are raised only in ACC and leave it for good; an overflowing byte runs no pre-check. -/
def Obligations.DiagnosticsLeaveAcc : Prop :=
  ∀ (s t : State) (b : Byte), exec (.byte b) s = .next t →
    (t.out.ev = .overflow ∨ t.out.ev = .badCrc → s.phase = .acc ∧ t.phase ≠ .acc) ∧
    (t.out.ev = .overflow ↔ s.phase = .acc ∧ 27 ≤ s.cnt.toNat) ∧
    (t.out.ev = .overflow → t.out.chk = false)

/-- R130: every BYTE adds its byte to `CSUM` modulo 256, before any check of the same step: seen in `CSUM` while the frame
goes on, and in `O.acc` where the sum is reported. -/
def Obligations.EveryByteIsSummed : Prop :=
  ∀ (s t : State) (b : Byte), exec (.byte b) s = .next t →
    (s.phase = .idle → t.csum = b) ∧
    (s.phase ≠ .idle → t.phase ≠ .idle → t.out.ev ≠ .badCrc → t.csum.toNat = (s.csum.toNat + b.toNat) % 256) ∧
    (t.out.ev = .badCrc ∨ t.out.ev = .frameComplete → t.out.acc.toNat = (s.csum.toNat + b.toNat) % 256) ∧
    (t.out.ev = .badCrc → t.out.acc ≠ 0 ∧ t.csum = 0)

/-- R134: the accumulator attached to FRAME_COMPLETE is the trailer byte. The premise `Inv` is `StepKeepsInv`'s. -/
def Obligations.CompletionSumIsTheTrailer : Prop :=
  ∀ (s t : State) (b : Byte), s.Inv → exec (.byte b) s = .next t → t.out.ev = .frameComplete →
    t.out.acc = b ∧ t.buf.read (6 + s.len.toNat) = b

/-- R51: the only buffer write is BYTE's, of its byte at the index of `storeIndex`, and every other cell reads as before;
a byte that is not stored changes no cell. -/
def Obligations.ByteStoresOnlyAtItsIndex : Prop :=
  ∀ (s t : State) (b : Byte), s.buf.wf = true → exec (.byte b) s = .next t →
    (∀ a, (frameStart s).phase = .acc → storeIndex (frameStart s).cnt = some a →
      t.buf.read a = b ∧ a < 27 ∧ ∀ a', a' ≠ a → t.buf.read a' = s.buf.read a') ∧
    (((frameStart s).phase ≠ .acc ∨ storeIndex (frameStart s).cnt = none) →
      ∀ a', t.buf.read a' = s.buf.read a')

/-! ### Frames -/

/-- R57, R170, R147: NOP and the field decoders change nothing but the output record; the decoders only its five field
outputs. -/
def Obligations.OnlyTheRecordChanges : Prop :=
  ∀ (i : Instr) (s t : State), (∀ b, i ≠ .byte b) → i ≠ .timeout → (∀ en addr, i ≠ .reset en addr) →
    exec i s = .next t →
    t = { s with out := t.out } ∧ (∀ a, t.buf.read a = s.buf.read a) ∧
    (i ≠ .nop →
      t.out = { s.out with
                  fSel := t.out.fSel, fCode := t.out.fCode, fRaw := t.out.fRaw, c10 := t.out.c10, f10 := t.out.f10 })

/-- R30, R31: only RESET writes the filter registers, no operation writes the table; TIMEOUT and RESET change no buffer
cell, and no instruction touches what is still to be presented. -/
def Obligations.ConfigurationChangesOnlyByReset : Prop :=
  ∀ (i : Instr) (s t : State), exec i s = .next t →
    t.table = s.table ∧ t.inputs = s.inputs ∧ t.probe = s.probe ∧
    ((∀ en addr, i ≠ .reset en addr) → t.filtEn = s.filtEn ∧ t.filtAddr = s.filtAddr ∧ t.booted = s.booted) ∧
    ((∀ b, i ≠ .byte b) → ∀ a, t.buf.read a = s.buf.read a)

/-- R170: what a decoder writes is a function of `buf`, `LEN` and its arguments alone. -/
def Obligations.DecodersReadOnlyTheFrame : Prop :=
  ∀ (fs : FSel) (p : Offset) (s s' t t' : State), s.buf = s'.buf → s.len = s'.len →
    exec (fs.instr p) s = .next t → exec (fs.instr p) s' = .next t' →
    t.out.fSel = t'.out.fSel ∧ t.out.fCode = t'.out.fCode ∧ t.out.fRaw = t'.out.fRaw ∧
    t.out.c10 = t'.out.c10 ∧ t.out.f10 = t'.out.f10

/-! ### Field decoders

Every step starts from the all-zero record (R73; `StepRunsThePresentedInstruction`). -/

/-- R153, R154: F_NONE and F_OK read no byte; their codes are NONE and OK. -/
def Obligations.NoneAndOkReadNoByte : Prop :=
  ∀ (s : State) (p : Offset), s.Running → s.out = OutRecord.zero →
    decode (.sel ⟨0b000, p⟩) = .ok .fNone ∧ decode (.sel ⟨0b001, p⟩) = .ok .fOk ∧
    exec .fNone s = .next
      { s with out := { OutRecord.zero with fSel := .fNone, fCode := .noField } } ∧
    exec .fOk s = .next
      { s with out := { OutRecord.zero with fSel := .fOk, fCode := .ok } }

/-- R155: F_POWER on a field inside the payload. -/
def Obligations.PowerFieldDecodes : Prop :=
  ∀ (s : State) (p : Offset) (x : Byte), s.Running → s.out = OutRecord.zero → p.toNat ≤ 19 →
    p.toNat + 1 ≤ s.len.toNat → x = s.buf.read (5 + p.toNat) →
    decode (.sel ⟨0b010, p⟩) = .ok (.fPower p) ∧
    exec (.fPower p) s = .next
      { s with out := { OutRecord.zero with
          fSel := .fPower, fCode := if x = 1 then .on else if x = 0 then .off else .unknown
          fRaw := x } }

/-- R156: F_MODE_SET on a field inside the payload. -/
def Obligations.ModeSetFieldDecodes : Prop :=
  ∀ (s : State) (p : Offset) (x : Byte), s.Running → s.out = OutRecord.zero → p.toNat ≤ 19 →
    p.toNat + 1 ≤ s.len.toNat → x = s.buf.read (5 + p.toNat) →
    decode (.sel ⟨0b011, p⟩) = .ok (.fModeSet p) ∧
    exec (.fModeSet p) s = .next
      { s with out := { OutRecord.zero with
          fSel := .fModeSet
          fCode := if x = 7 then .heat else if x = 8 then .cool else if x = 32 then .auto else .unknown
          fRaw := x } }

/-- R157: F_MODE_GET on a field inside the payload. -/
def Obligations.ModeGetFieldDecodes : Prop :=
  ∀ (s : State) (p : Offset) (x : Byte), s.Running → s.out = OutRecord.zero → p.toNat ≤ 19 →
    p.toNat + 1 ≤ s.len.toNat → x = s.buf.read (5 + p.toNat) →
    decode (.sel ⟨0b100, p⟩) = .ok (.fModeGet p) ∧
    exec (.fModeGet p) s = .next
      { s with out := { OutRecord.zero with
          fSel := .fModeGet
          fCode := if x = 7 then .heat else if x = 8 then .cool else if x = 0x0D then .fanOnly else .unknown
          fRaw := x } }

/-- R158: F_FAN on a field inside the payload. -/
def Obligations.FanFieldDecodes : Prop :=
  ∀ (s : State) (p : Offset) (x : Byte), s.Running → s.out = OutRecord.zero → p.toNat ≤ 19 →
    p.toNat + 1 ≤ s.len.toNat → x = s.buf.read (5 + p.toNat) →
    decode (.sel ⟨0b101, p⟩) = .ok (.fFan p) ∧
    exec (.fFan p) s = .next
      { s with out := { OutRecord.zero with
          fSel := .fFan
          fCode := if x = 4 then .low else if x = 5 then .medium else if x = 6 then .high
            else if x = 0x0B then .auto else .unknown
          fRaw := x } }

/-- R159: F_STATUS on a field inside the payload. -/
def Obligations.StatusFieldDecodes : Prop :=
  ∀ (s : State) (p : Offset) (x : Byte), s.Running → s.out = OutRecord.zero → p.toNat ≤ 19 →
    p.toNat + 1 ≤ s.len.toNat → x = s.buf.read (5 + p.toNat) →
    decode (.sel ⟨0b110, p⟩) = .ok (.fStatus p) ∧
    exec (.fStatus p) s = .next
      { s with out := { OutRecord.zero with
          fSel := .fStatus, fCode := if x = 0 then .stopped else if x = 1 then .running else .unknown
          fRaw := x } }

/-- R160, R161: F_TEMP on a field inside the payload: the exact tenths in both scales, with no truncation to 16 bits. -/
def Obligations.TemperatureFieldDecodes : Prop :=
  ∀ (s : State) (p : Offset) (a x : Byte), s.Running → s.out = OutRecord.zero → p.toNat ≤ 19 →
    p.toNat + 2 ≤ s.len.toNat →
    a = s.buf.read (5 + p.toNat) → x = s.buf.read (6 + p.toNat) →
    decode (.sel ⟨0b111, p⟩) = .ok (.fTemp p) ∧
    ∃ t, exec (.fTemp p) s = .next t ∧
      t = { s with out := { OutRecord.zero with
              fSel := .fTemp, fCode := .temp, fRaw := a, c10 := t.out.c10, f10 := t.out.f10 } } ∧
      t.out.c10.toNat = a.toNat * 100 + (x >>> 4).toNat * 10 + (x &&& 0xF).toNat ∧
      t.out.f10.toNat = (t.out.c10.toNat * 18 + 3200 + 5) / 10

/-- R152: a decoder whose field does not fit in the payload does not run: FIELD_OOR. -/
def Obligations.FieldOutsideThePayload : Prop :=
  ∀ (s : State) (p : Offset) (fs : FSel), s.Running → s.out = OutRecord.zero → p.toNat ≤ 19 → 0 < fieldWidth fs →
    s.len.toNat < p.toNat + fieldWidth fs →
    exec (fs.instr p) s = .next
      { s with out := { OutRecord.zero with fSel := fs, fCode := .fieldOor } }

/-- R162, and R161's rounding: temperatures fit 16 bits, Fahrenheit is the nearest tenth and no tie occurs. -/
def Obligations.TemperatureRangesAndRounding : Prop :=
  ∀ (a x : Byte),
    celsiusTenths a x ≤ 25665 ∧ fahrenheitTenths (celsiusTenths a x) ≤ 46517 ∧
    (celsiusTenths a x * 18 + 3200) % 10 ≠ 5 ∧
    10 * fahrenheitTenths (celsiusTenths a x) < celsiusTenths a x * 18 + 3200 + 5 ∧
    celsiusTenths a x * 18 + 3200 < 10 * fahrenheitTenths (celsiusTenths a x) + 5

/-- R164: the two mode code spaces share only 7 and 8, and decode 0x0D and 32 differently. -/
def Obligations.ModeCodeSpacesStayApart : Prop :=
  (∀ x : Byte, (modeSetCode x ≠ .unknown ∧ modeGetCode x ≠ .unknown) ↔ (x = 7 ∨ x = 8)) ∧
  modeSetCode 7 = modeGetCode 7 ∧ modeSetCode 8 = modeGetCode 8 ∧
  modeSetCode 0x0D = .unknown ∧ modeGetCode 0x0D = .fanOnly ∧ modeSetCode 32 = .auto ∧ modeGetCode 32 = .unknown

/-- R84, R86: the eighteen handler kind codes and the multiplexer's select table, in order. -/
def Obligations.SelectTableAsWritten : Prop :=
  HandlerKind.all.map (fun h => ((h.code).toNat, (fselOf h).code.toNat)) =
    [(1, 2), (2, 1), (3, 3), (4, 1), (5, 0), (6, 4), (7, 7), (8, 1), (9, 0), (10, 7), (11, 5), (12, 1), (13, 0),
     (14, 5), (15, 0), (16, 6), (17, 0), (18, 7)]

/-! ### Matcher -/

/-- R141, R142, R145, R146: the entry predicate is the spec's; an empty pattern matches, an entry with an expected bit
outside its mask never does. -/
def Obligations.EntryPredicateIsTheSpecs : Prop :=
  ∀ (m : Memory) (n : Nat) (e : Entry),
    (entryMatches m n e = true ↔ EntryDescribes m n e) ∧
    (e.pat = [] → entryMatches m n e = true) ∧
    ((∃ i, ∃ h : i < e.pat.length, (e.pat[i]).2 &&& ~~~(e.pat[i]).1 ≠ 0) → entryMatches m n e = false)

/-- R143: on completion the first entry that describes the frame, in declared order, is selected. -/
def Obligations.FirstMatchWins : Prop :=
  ∀ (s : State) (b : Byte) (j : Nat) (e : Entry), s.Running → s.phase = .acc → s.cnt.toNat < 27 →
    s.cnt.toNat + 1 = 7 + s.len.toNat →
    s.table[j]? = some e → EntryDescribes (s.buf.write s.cnt.toNat b) (7 + s.len.toNat) e →
    (∀ j' e', j' < j → s.table[j']? = some e' →
      ¬ EntryDescribes (s.buf.write s.cnt.toNat b) (7 + s.len.toNat) e') →
    ∃ t, exec (.byte b) s = .next t ∧ t.out.ev = .frameComplete ∧ t.out.mHit = true ∧ t.out.mIdx.toNat = j ∧
      t.out.mHk = e.hk.code ∧ t.out.fSel = fselOf e.hk

/-- R150, R151: the matched entry's decoder runs on the completed frame: the field outputs of the step are what the
decoder's own instruction writes, run on the state in which the frame's last byte has been stored and counted. -/
def Obligations.MultiplexerRunsTheSelectedDecoder : Prop :=
  ∀ (s : State) (b : Byte) (j : Nat) (e : Entry), s.Running → s.phase = .acc → s.cnt.toNat < 27 →
    s.cnt.toNat + 1 = 7 + s.len.toNat →
    s.table[j]? = some e → EntryDescribes (s.buf.write s.cnt.toNat b) (7 + s.len.toNat) e →
    (∀ j' e', j' < j → s.table[j']? = some e' →
      ¬ EntryDescribes (s.buf.write s.cnt.toNat b) (7 + s.len.toNat) e') →
    ∃ t u, exec (.byte b) s = .next t ∧
      exec ((fselOf e.hk).instr e.p)
        { s with cnt := s.cnt + 1, csum := s.csum + b, buf := s.buf.write s.cnt.toNat b, out := OutRecord.zero } = .next u ∧
      t.out.fSel = u.out.fSel ∧ t.out.fCode = u.out.fCode ∧ t.out.fRaw = u.out.fRaw ∧ t.out.c10 = u.out.c10 ∧
      t.out.f10 = u.out.f10

/-- R144, R205: a completed frame no entry describes is unrecognized, and still a completed frame. -/
def Obligations.UnmatchedFrameIsUnrecognized : Prop :=
  ∀ (s : State) (b : Byte), s.Running → s.phase = .acc → s.cnt.toNat < 27 →
    s.cnt.toNat + 1 = 7 + s.len.toNat →
    (∀ e ∈ s.table, ¬ EntryDescribes (s.buf.write s.cnt.toNat b) (7 + s.len.toNat) e) →
    ∃ t, exec (.byte b) s = .next t ∧ t.out.ev = .frameComplete ∧ t.out.mHit = false ∧ t.out.mIdx = 0 ∧
      t.out.mHk = 0 ∧ t.out.fSel = .fNone ∧ t.out.fCode = .noField

/-! ### Filter and ports -/

/-- R181, R182: the filter bit on the steps that report a frame; 0 on every other BYTE step. -/
def Obligations.FilterComparesBytesOneAndTwo : Prop :=
  ∀ (s t : State) (b : Byte), exec (.byte b) s = .next t →
    (t.out.ev = .frameComplete ∨ t.out.ev = .badCrc →
      (t.out.pass = true ↔ s.filtEn = false ∨ t.buf.read 1 = s.filtAddr ∨ t.buf.read 2 = s.filtAddr)) ∧
    (t.out.ev ≠ .frameComplete → t.out.ev ≠ .badCrc → t.out.pass = false)

/-- R183: the filter changes no state and no other output. -/
def Obligations.FilterChangesNothingElse : Prop :=
  ∀ (s : State) (b : Byte) (en : Bool) (addr : Byte), s.Running →
    ∃ t t', exec (.byte b) s = .next t ∧ exec (.byte b) { s with filtEn := en, filtAddr := addr } = .next t' ∧
      t' = { t with filtEn := en, filtAddr := addr, out := { t.out with pass := t'.out.pass } }

/-- R71, R223: the configuration port is sampled only by a RESET step. -/
def Obligations.ConfigPortSampledOnlyByReset : Prop :=
  ∀ (s : State) (w : OpWord) (ws : List OpWord) (en : Bool) (addr : Byte), s.probe = none → s.inputs = w :: ws →
    w.opw.extractLsb' 8 2 ≠ 3 →
    step { s with inputs := { w with cfgFiltEn := en, cfgFiltAddr := addr } :: ws } = step s

/-- R72: for an operation other than BYTE the DATA bits are ignored. -/
def Obligations.DataBitsIgnored : Prop :=
  ∀ (s : State) (w w' : OpWord) (ws : List OpWord), s.probe = none → s.inputs = w :: ws →
    w.opw.extractLsb' 8 2 ≠ 1 → w'.opw.extractLsb' 8 2 = w.opw.extractLsb' 8 2 →
    w'.cfgFiltEn = w.cfgFiltEn → w'.cfgFiltAddr = w.cfgFiltAddr →
    step { s with inputs := w' :: ws } = step s

/-- R75: no step of any instruction, from the all-zero record, produces the event codes 5 and 10 to 15. -/
def Obligations.ReservedEventsNeverProduced : Prop :=
  ∀ (i : Instr) (s t : State), s.out = OutRecord.zero → exec i s = .next t →
    t.out.ev.code ≠ 5 ∧ t.out.ev.code.toNat < 10

/-- R33: every field of `STAT0` at its bits, the reserved bits 0. -/
def Obligations.Stat0Fields : Prop :=
  ∀ (s : State), s.booted = true →
    ∃ v, stat0 s = some v ∧ v.extractLsb' 0 2 = s.phase.bits ∧ v.getLsbD 2 = s.ovf ∧ v.getLsbD 3 = s.skipc ∧
      v.extractLsb' 4 4 = 0 ∧ v.extractLsb' 8 8 = s.csum ∧ v.extractLsb' 16 9 = s.cnt ∧ v.extractLsb' 25 7 = 0

/-- R34: every field of `STAT1` at its bits, the reserved bits 0. -/
def Obligations.Stat1Fields : Prop :=
  ∀ (s : State), s.booted = true →
    ∃ v, stat1 s = some v ∧ v.extractLsb' 0 8 = s.len ∧ v.getLsbD 8 = s.filtEn ∧ v.extractLsb' 9 7 = 0 ∧
      v.extractLsb' 16 8 = s.filtAddr ∧ v.extractLsb' 24 8 = 0

/-! ### Encoding -/

/-- Decoding the encoding of a well-formed instruction gives it back (R70, R85, R88). -/
def Obligations.DecodeInvertsEncode : Prop := ∀ i : Instr, i.wf = true → decode (encode i) = .ok i

/-- R80 to R82: unpacking the packed ROM row of a well-formed entry gives it back, every byte of mask and expected
sequence at its bits. -/
def Obligations.UnpackInvertsPack : Prop := ∀ e : Entry, e.wf = true → unpackEntry (packEntry e) = .ok e

/-- R83: exactly the rows with `k <= 23`, `hk` in 1..18 and `p` in 0..19 are given a meaning, whatever their masks and
expected bytes, that of the fields at their bits (R81). A list of at most 32 such rows is built, entry `j` from row `j`, into
a well-formed table; one with any other row, or with more than 32 rows, is refused. -/
def Obligations.IllegalRowsRefused : Prop :=
  (∀ r : RomRow,
    (∃ e, unpackEntry r = .ok e) ↔
      (r.toNat % 32 ≤ 23 ∧ 1 ≤ r.toNat / 32 % 32 ∧ r.toNat / 32 % 32 ≤ 18 ∧ r.toNat / 1024 % 32 ≤ 19)) ∧
  (∀ r e, unpackEntry r = .ok e →
    e.k = r.toNat % 32 ∧ e.hk.code.toNat = r.toNat / 32 % 32 ∧ e.p.toNat = r.toNat / 1024 % 32 ∧
    ∀ (i : Nat) (h : i < e.pat.length),
      (e.pat[i]).1.toNat = r.toNat / 2 ^ (15 + 8 * i) % 256 ∧ (e.pat[i]).2.toNat = r.toNat / 2 ^ (199 + 8 * i) % 256) ∧
  (∀ rows : List RomRow, rows.length ≤ 32 → (∀ r ∈ rows, ∃ e, unpackEntry r = .ok e) → ∃ t, buildTable rows = .ok t) ∧
  (∀ rows t, buildTable rows = .ok t →
    tableWf t = true ∧ t.length = rows.length ∧
    ∀ (j : Nat) (r : RomRow), rows[j]? = some r → ∃ e, unpackEntry r = .ok e ∧ t[j]? = some e) ∧
  (∀ (rows : List RomRow) (r : RomRow), r ∈ rows → (¬ ∃ e, unpackEntry r = .ok e) →
    ∃ x, buildTable rows = .error x) ∧
  (∀ rows : List RomRow, 32 < rows.length → buildTable rows = .error .tooManyEntries)

/-- Sanity: the `OP` and `DATA` bits of R70 and the `fsel` bits of R85, written out, decode to their instructions. Where a table
word carries the offset and the configuration port, which are 0 here, is the model's choice (log 5). -/
def Obligations.WordsDecodeAsWritten : Prop :=
  decodeTableWord 16 0b0000000000 = some .nop ∧ decodeTableWord 16 0b0110100101 = some (.byte 0xA5) ∧
  decodeTableWord 16 0b1000000000 = some .timeout ∧ decodeTableWord 16 0b1100000000 = some (.reset false 0) ∧
  decodeTableWord 8 0b000 = some .fNone ∧ decodeTableWord 8 0b101 = some (.fFan 0) ∧
  decodeTableWord 8 0b111 = some (.fTemp 0)

/-- A step runs the instruction presented (R11, R73), from the all-zero record; a rejected select word is refused; with
nothing presented nothing changes (R213). The stream of operations and the driven select lines are the model's own ports
(log 2, log 4, log 15). -/
def Obligations.StepRunsThePresentedInstruction : Prop :=
  ∀ (s : State),
    (∀ w ws, s.probe = none → s.inputs = w :: ws →
      step s = exec (decodeOp w) { s with inputs := ws, out := OutRecord.zero }) ∧
    (∀ w i, s.probe = some w → decode (.sel w) = .ok i →
      step s = exec i { s with probe := none, out := OutRecord.zero }) ∧
    (∀ w e, s.probe = some w → decode (.sel w) = .error e → step s = .refused .illegalPayloadOffset) ∧
    (s.probe = none → s.inputs = [] → step s = .next s)

/-- R136, R137: the checksum byte is the only one that passes the pre-check, and every nonzero perturbation of it fails. -/
def Obligations.ChecksumByteIsUnique : Prop :=
  ∀ (bs : List Byte) (c delta : Byte),
    (validate (bs.sum + c) = .ok ↔ c = BitVec.ofNat 8 (checksumFor (bs.map BitVec.toNat))) ∧
    (validate (bs.sum + c) = .ok → delta ≠ 0 →
      validate (bs.sum + (c + delta)) = .mismatch ∧ bs.sum + (c + delta) = delta)

/-- R89, R90: the words of the assembler's operations and pseudo-operations, the checksum byte of FRAMECS computed and that of
FRAMEBAD off by `delta`. An operand outside the range the rules give it is refused: R89 says so of BYTE, for the others it is
the model's reading (log 17). -/
def Obligations.AssemblerWordsAsWritten : Prop :=
  ∀ (b a d u1 u2 s t delta : Nat) (bs q : List Nat),
    let word : Nat → OpWord := fun x => ⟨BitVec.ofNat 10 (0x100 + x), false, 0⟩
    let head : List Nat := [d, u1, u2, s, q.length] ++ q
    let c : Nat := (256 - head.sum % 256) % 256
    assembleLine .nop = some [⟨0x000, false, 0⟩] ∧ assembleLine .timeout = some [⟨0x200, false, 0⟩] ∧
    assembleLine (.reset none) = some [⟨0x300, false, 0⟩] ∧
    (a < 256 → assembleLine (.reset (some a)) = some [⟨0x300, true, BitVec.ofNat 8 a⟩]) ∧
    (256 ≤ a → assembleLine (.reset (some a)) = none) ∧
    (b < 256 → assembleLine (.byte b) = some [word b]) ∧
    (256 ≤ b → assembleLine (.byte b) = none) ∧
    ((∀ x ∈ bs, x < 256) → assembleLine (.frame bs) = some (bs.map word)) ∧
    ((∃ x ∈ bs, 256 ≤ x) → assembleLine (.frame bs) = none) ∧
    ((∀ x ∈ [d, u1, u2, s, t] ++ q, x < 256) → q.length < 256 →
      assembleLine (.frameCs d u1 u2 s q t) = some ((head ++ [c, t]).map word) ∧
      (1 ≤ delta → delta < 256 →
        assembleLine (.frameBad d u1 u2 s q t delta) = some ((head ++ [(c + delta) % 256, t]).map word))) ∧
    ((∃ x ∈ [d, u1, u2, s, t] ++ q, 256 ≤ x) ∨ 256 ≤ q.length →
      assembleLine (.frameCs d u1 u2 s q t) = none ∧ assembleLine (.frameBad d u1 u2 s q t delta) = none) ∧
    (delta = 0 ∨ 256 ≤ delta → assembleLine (.frameBad d u1 u2 s q t delta) = none)

/-! ### Invariants -/

/-- R41, R37: the state after reset meets the invariant. The record, the filter and the table of `State.reset` are the model's
choice (log 7, log 8, log 14); the second clause is for every table and filter. -/
def Obligations.ResetMeetsInv : Prop :=
  State.reset.Inv ∧ ∀ t en addr, (State.resetWith t en addr).Inv

/-- R37, R38, R39, R73, R75: every step keeps the invariant: the buffer's canonical form, the record's legality, and the
phase's invariant. -/
def Obligations.StepKeepsInv : Prop := ∀ s t : State, s.Inv → step s = .next t → t.Inv

/-- R23, R113: a block that meets the invariant never holds PHASE 0b11 and its count never exceeds 262. -/
def Obligations.CountNeverExceeds262 : Prop :=
  ∀ s t : State, s.Inv → s.booted = true → step s = .next t → t.phase ≠ .reserved ∧ t.cnt.toNat ≤ 262

/-! ### Whole frames -/

/-- R135: a whole frame with `L <= MAX_DATA` delivered to an idle block completes exactly when its bytes 0 .. 5+L sum to 0
modulo 256; otherwise it is reported at byte `6 + L`, skipped at byte `7 + L`, and never completes. -/
def Obligations.AcceptanceIsTheChecksum : Prop :=
  ∀ (s : State) (L : Byte) (bs : List Byte) (rest : List OpWord), s.Fed bs rest → IsFrame L bs → L.toNat ≤ 20 →
    ((bs.take (6 + L.toNat)).sum = 0 →
      ∃ t, run (7 + L.toNat) s = .next t ∧ t.out.ev = .frameComplete ∧ t.out.fend = true ∧
        t.out.flen.toNat = 7 + L.toNat ∧ t.out.frame.take (7 + L.toNat) = bs ∧
        bs[6 + L.toNat]? = some t.out.acc ∧ t.phase = .idle ∧ t.inputs = rest) ∧
    ((bs.take (6 + L.toNat)).sum ≠ 0 →
      (∃ t, run (6 + L.toNat) s = .next t ∧ t.out.ev = .badCrc ∧ t.out.acc = (bs.take (6 + L.toNat)).sum ∧
        t.out.flen.toNat = 6 + L.toNat ∧ t.out.frame.take (6 + L.toNat) = bs.take (6 + L.toNat)) ∧
      (∃ t, run (7 + L.toNat) s = .next t ∧ t.out.ev = .skipEnd ∧ t.out.fend = true ∧ t.phase = .idle ∧
        t.inputs = rest) ∧
      (∀ k, 1 ≤ k → k ≤ 7 + L.toNat →
        ∃ t, run k s = .next t ∧ t.out.ev ≠ .frameComplete ∧ t.out.mHit = false))

/-- R114: a frame longer than the buffer: with `L = 21` and a good checksum byte 28 overflows and ends the frame; with a
bad one it is condemned at byte 27 and skipped at byte 28; with `L >= 22` byte 28 overflows and byte `7 + L` ends the
skipped frame. -/
def Obligations.OverlongFramesOverflow : Prop :=
  ∀ (s : State) (L : Byte) (bs : List Byte) (rest : List OpWord), s.Fed bs rest → IsFrame L bs → 21 ≤ L.toNat →
    (L.toNat = 21 → (bs.take 27).sum = 0 →
      (∃ t, run 27 s = .next t ∧ t.out.ev = .continuing ∧ t.out.chk = true) ∧
      ∃ t, run 28 s = .next t ∧ t.out.ev = .overflow ∧ t.out.fend = true ∧ t.phase = .idle ∧ t.inputs = rest) ∧
    (L.toNat = 21 → (bs.take 27).sum ≠ 0 →
      (∃ t, run 27 s = .next t ∧ t.out.ev = .badCrc ∧ t.out.acc = (bs.take 27).sum) ∧
      ∃ t, run 28 s = .next t ∧ t.out.ev = .skipEnd ∧ t.out.fend = true ∧ t.phase = .idle ∧ t.inputs = rest) ∧
    (22 ≤ L.toNat →
      (∃ t, run 28 s = .next t ∧ t.out.ev = .overflow ∧ t.out.fend = false ∧ t.out.chk = false ∧ t.phase = .skip) ∧
      ∃ t, run (7 + L.toNat) s = .next t ∧ t.out.ev = .skipEnd ∧ t.out.fend = true ∧ t.phase = .idle ∧
        t.inputs = rest)

/-- R113, R204: a condemned frame always ends by count: whatever its remaining bytes are, the last of them raises SKIP_END
and the block is in IDLE. -/
def Obligations.SkipEndsByCount : Prop :=
  ∀ (s : State) (bs : List Byte) (rest : List OpWord), s.Running → s.phase = .skip → s.SkipInv → s.probe = none →
    s.inputs = bs.map byteWord ++ rest → bs.length = 7 + s.len.toNat - s.cnt.toNat →
    ∃ t, run bs.length s = .next t ∧ t.out.ev = .skipEnd ∧ t.out.fend = true ∧ t.phase = .idle ∧ t.inputs = rest

/-- R40, R51: buffer cells at or above the current count are unobservable: two blocks that differ only in such cells give
the same output for every operation and again differ only in such cells, with both buffers canonical: the relation holds again
and the step lemma chains. -/
def Obligations.StaleCellsUnobservable : Prop :=
  ∀ (s s' : State) (w : OpWord), s.buf.wf = true → s'.buf.wf = true → s' = { s with buf := s'.buf } →
    (s.phase = .acc → ∀ i, i < s.cnt.toNat → s'.buf.read i = s.buf.read i) →
    ∀ t, exec (decodeOp w) s = .next t →
      ∃ t', exec (decodeOp w) s' = .next t' ∧ t' = { t with buf := t'.buf } ∧
        t.buf.wf = true ∧ t'.buf.wf = true ∧ (t.phase = .acc → ∀ i, i < t.cnt.toNat → t'.buf.read i = t.buf.read i)

/-- R11 ("Idempotence"), R221: two sessions of the same operations, each begun by a RESET with the same configuration port,
give the same record and the same status words at every step, whatever each block held before. -/
def Obligations.SessionsAreIdempotent : Prop :=
  ∀ (s s' t : State) (w : OpWord) (ws : List OpWord) (k : Nat), s.buf.wf = true → s'.buf.wf = true →
    s'.table = s.table → s.probe = none → s'.probe = none → s.inputs = w :: ws → s'.inputs = w :: ws →
    w.opw.extractLsb' 8 2 = 3 → 1 ≤ k → run k s = .next t →
    ∃ t', run k s' = .next t' ∧ t'.out = t.out ∧ stat0 t' = stat0 t ∧ stat1 t' = stat1 t

/-! ### Codes -/

/-- R23, R74, R85, R87: the codes of the phases, events, field decoders and field values, in the order of the spec's tables. -/
def Obligations.CodesAsWritten : Prop :=
  [Phase.idle, .acc, .skip, .reserved].map Phase.bits = [0b00, 0b01, 0b10, 0b11] ∧
  [Event.noEvent, .continuing, .frameComplete, .overflow, .badCrc, .badLength, .skipEnd, .abandon, .heartbeat,
    .resetDone].map Event.code = [0, 1, 2, 3, 4, 5, 6, 7, 8, 9] ∧
  [FSel.fNone, .fOk, .fPower, .fModeSet, .fModeGet, .fFan, .fStatus, .fTemp].map FSel.code = [0, 1, 2, 3, 4, 5, 6, 7] ∧
  [FieldCode.unknown, .on, .off, .heat, .cool, .auto, .fanOnly, .low, .medium, .high, .stopped, .running, .ok, .temp,
    .noField, .fieldOor].map FieldCode.code = [0, 1, 2, 3, 4, 5, 6, 7, 8, 9, 10, 11, 12, 13, 14, 15]
end

