-- ==== Sys2Proof/Laws/Assembler.lean ====
section
/-! SUPPORT. What the assembler's words are: one byte's word as a number, and all that a list of bytes can assemble to
(30_encoding.md R89, R90). -/

namespace Sys2Proof.Machine

/-- The word of `BYTE x` is `0x100 + x` (R89). -/
theorem byteWord_ofNat {x : Nat} (h : x < 256) :
    byteWord (BitVec.ofNat 8 x) = ⟨BitVec.ofNat 10 (0x100 + x), false, 0⟩ := by
  unfold byteWord
  congr 1
  rw [← BitVec.toNat_inj, BitVec.toNat_append]
  simp only [BitVec.toNat_ofNat]
  rw [Nat.mod_eq_of_lt (show x < 2 ^ 8 by omega), ← Nat.shiftLeft_add_eq_or_of_lt (by omega), Nat.shiftLeft_eq,
    show (1 : BitVec 2).toNat = 1 from rfl]
  omega

theorem byteWords_some {bs : List Nat} (h : ∀ x ∈ bs, x < 256) :
    byteWords bs = some (bs.map (fun x => ⟨BitVec.ofNat 10 (0x100 + x), false, 0⟩)) := by
  rw [byteWords, if_pos (by simpa using h)]
  exact congrArg some (List.map_congr_left fun x hx => byteWord_ofNat (h x hx))

theorem byteWords_none {bs : List Nat} (h : ∃ x ∈ bs, 256 ≤ x) : byteWords bs = none := by
  obtain ⟨x, hx, hb⟩ := h
  rw [byteWords, if_neg]
  simp only [List.all_eq_true, decide_eq_true_eq]
  exact fun hall => absurd (hall x hx) (by omega)

end Sys2Proof.Machine
end

