-- ==== Sys2Proof/Laws/WellFormed.lean ====
section
/-! SUPPORT. The well-formedness checks as propositions about numbers (00_scope.md R8). -/

namespace Sys2Proof

theorem offsetWf_iff {p : Offset} : offsetWf p = true ↔ p.toNat < 20 := decide_eq_true_iff

theorem entry_wf_iff {e : Entry} : e.wf = true ↔ e.pat.length ≤ 23 ∧ e.p.toNat < 20 := by
  rw [Entry.wf, Bool.and_eq_true, offsetWf_iff]
  exact and_congr_left' decide_eq_true_iff

theorem tableWf_iff {t : List Entry} : tableWf t = true ↔ t.length ≤ 32 ∧ ∀ e ∈ t, e.wf = true := by
  rw [tableWf, Bool.and_eq_true, List.all_eq_true]
  exact and_congr_left' decide_eq_true_iff

end Sys2Proof
end

