-- ==== Sys2Proof/Laws/State.lean ====
section
/-! SUPPORT. What each update of State does to each field: one lemma per field per update, so that no later proof unfolds
a record update. The composed operations (sub-steps of BYTE) get a lemma for every field they never change. -/

namespace Sys2Proof.Machine

/-! ### clearOut -/

@[simp] theorem clearOut_phase (s : State) : (clearOut s).phase = s.phase := rfl
@[simp] theorem clearOut_cnt (s : State) : (clearOut s).cnt = s.cnt := rfl
@[simp] theorem clearOut_csum (s : State) : (clearOut s).csum = s.csum := rfl
@[simp] theorem clearOut_len (s : State) : (clearOut s).len = s.len := rfl
@[simp] theorem clearOut_ovf (s : State) : (clearOut s).ovf = s.ovf := rfl
@[simp] theorem clearOut_skipc (s : State) : (clearOut s).skipc = s.skipc := rfl
@[simp] theorem clearOut_buf (s : State) : (clearOut s).buf = s.buf := rfl
@[simp] theorem clearOut_filtEn (s : State) : (clearOut s).filtEn = s.filtEn := rfl
@[simp] theorem clearOut_filtAddr (s : State) : (clearOut s).filtAddr = s.filtAddr := rfl
@[simp] theorem clearOut_table (s : State) : (clearOut s).table = s.table := rfl
@[simp] theorem clearOut_booted (s : State) : (clearOut s).booted = s.booted := rfl
@[simp] theorem clearOut_out (s : State) : (clearOut s).out = OutRecord.zero := rfl
@[simp] theorem clearOut_inputs (s : State) : (clearOut s).inputs = s.inputs := rfl
@[simp] theorem clearOut_probe (s : State) : (clearOut s).probe = s.probe := rfl

/-! ### raise -/

@[simp] theorem raise_phase (e : Event) (s : State) : (raise e s).phase = s.phase := rfl
@[simp] theorem raise_cnt (e : Event) (s : State) : (raise e s).cnt = s.cnt := rfl
@[simp] theorem raise_csum (e : Event) (s : State) : (raise e s).csum = s.csum := rfl
@[simp] theorem raise_len (e : Event) (s : State) : (raise e s).len = s.len := rfl
@[simp] theorem raise_ovf (e : Event) (s : State) : (raise e s).ovf = s.ovf := rfl
@[simp] theorem raise_skipc (e : Event) (s : State) : (raise e s).skipc = s.skipc := rfl
@[simp] theorem raise_buf (e : Event) (s : State) : (raise e s).buf = s.buf := rfl
@[simp] theorem raise_filtEn (e : Event) (s : State) : (raise e s).filtEn = s.filtEn := rfl
@[simp] theorem raise_filtAddr (e : Event) (s : State) : (raise e s).filtAddr = s.filtAddr := rfl
@[simp] theorem raise_table (e : Event) (s : State) : (raise e s).table = s.table := rfl
@[simp] theorem raise_booted (e : Event) (s : State) : (raise e s).booted = s.booted := rfl
@[simp] theorem raise_out (e : Event) (s : State) : (raise e s).out = { s.out with ev := e } := rfl
@[simp] theorem raise_inputs (e : Event) (s : State) : (raise e s).inputs = s.inputs := rfl
@[simp] theorem raise_probe (e : Event) (s : State) : (raise e s).probe = s.probe := rfl

/-! ### markFrameEnd -/

@[simp] theorem markFrameEnd_phase (s : State) : (markFrameEnd s).phase = s.phase := rfl
@[simp] theorem markFrameEnd_cnt (s : State) : (markFrameEnd s).cnt = s.cnt := rfl
@[simp] theorem markFrameEnd_csum (s : State) : (markFrameEnd s).csum = s.csum := rfl
@[simp] theorem markFrameEnd_len (s : State) : (markFrameEnd s).len = s.len := rfl
@[simp] theorem markFrameEnd_ovf (s : State) : (markFrameEnd s).ovf = s.ovf := rfl
@[simp] theorem markFrameEnd_skipc (s : State) : (markFrameEnd s).skipc = s.skipc := rfl
@[simp] theorem markFrameEnd_buf (s : State) : (markFrameEnd s).buf = s.buf := rfl
@[simp] theorem markFrameEnd_filtEn (s : State) : (markFrameEnd s).filtEn = s.filtEn := rfl
@[simp] theorem markFrameEnd_filtAddr (s : State) : (markFrameEnd s).filtAddr = s.filtAddr := rfl
@[simp] theorem markFrameEnd_table (s : State) : (markFrameEnd s).table = s.table := rfl
@[simp] theorem markFrameEnd_booted (s : State) : (markFrameEnd s).booted = s.booted := rfl
@[simp] theorem markFrameEnd_out (s : State) : (markFrameEnd s).out = { s.out with fend := true } := rfl
@[simp] theorem markFrameEnd_inputs (s : State) : (markFrameEnd s).inputs = s.inputs := rfl
@[simp] theorem markFrameEnd_probe (s : State) : (markFrameEnd s).probe = s.probe := rfl

/-! ### markSeparator -/

@[simp] theorem markSeparator_phase (s : State) : (markSeparator s).phase = s.phase := rfl
@[simp] theorem markSeparator_cnt (s : State) : (markSeparator s).cnt = s.cnt := rfl
@[simp] theorem markSeparator_csum (s : State) : (markSeparator s).csum = s.csum := rfl
@[simp] theorem markSeparator_len (s : State) : (markSeparator s).len = s.len := rfl
@[simp] theorem markSeparator_ovf (s : State) : (markSeparator s).ovf = s.ovf := rfl
@[simp] theorem markSeparator_skipc (s : State) : (markSeparator s).skipc = s.skipc := rfl
@[simp] theorem markSeparator_buf (s : State) : (markSeparator s).buf = s.buf := rfl
@[simp] theorem markSeparator_filtEn (s : State) : (markSeparator s).filtEn = s.filtEn := rfl
@[simp] theorem markSeparator_filtAddr (s : State) : (markSeparator s).filtAddr = s.filtAddr := rfl
@[simp] theorem markSeparator_table (s : State) : (markSeparator s).table = s.table := rfl
@[simp] theorem markSeparator_booted (s : State) : (markSeparator s).booted = s.booted := rfl
@[simp] theorem markSeparator_out (s : State) : (markSeparator s).out = { s.out with sep := true } := rfl
@[simp] theorem markSeparator_inputs (s : State) : (markSeparator s).inputs = s.inputs := rfl
@[simp] theorem markSeparator_probe (s : State) : (markSeparator s).probe = s.probe := rfl

/-! ### outputFrame -/

@[simp] theorem outputFrame_phase (n : Count) (s : State) : (outputFrame n s).phase = s.phase := rfl
@[simp] theorem outputFrame_cnt (n : Count) (s : State) : (outputFrame n s).cnt = s.cnt := rfl
@[simp] theorem outputFrame_csum (n : Count) (s : State) : (outputFrame n s).csum = s.csum := rfl
@[simp] theorem outputFrame_len (n : Count) (s : State) : (outputFrame n s).len = s.len := rfl
@[simp] theorem outputFrame_ovf (n : Count) (s : State) : (outputFrame n s).ovf = s.ovf := rfl
@[simp] theorem outputFrame_skipc (n : Count) (s : State) : (outputFrame n s).skipc = s.skipc := rfl
@[simp] theorem outputFrame_buf (n : Count) (s : State) : (outputFrame n s).buf = s.buf := rfl
@[simp] theorem outputFrame_filtEn (n : Count) (s : State) : (outputFrame n s).filtEn = s.filtEn := rfl
@[simp] theorem outputFrame_filtAddr (n : Count) (s : State) : (outputFrame n s).filtAddr = s.filtAddr := rfl
@[simp] theorem outputFrame_table (n : Count) (s : State) : (outputFrame n s).table = s.table := rfl
@[simp] theorem outputFrame_booted (n : Count) (s : State) : (outputFrame n s).booted = s.booted := rfl
@[simp] theorem outputFrame_out (n : Count) (s : State) : (outputFrame n s).out = { s.out with flen := n.setWidth 5, frame := frameBytes s.buf n.toNat } := rfl
@[simp] theorem outputFrame_inputs (n : Count) (s : State) : (outputFrame n s).inputs = s.inputs := rfl
@[simp] theorem outputFrame_probe (n : Count) (s : State) : (outputFrame n s).probe = s.probe := rfl

/-! ### outputPass -/

@[simp] theorem outputPass_phase (s : State) : (outputPass s).phase = s.phase := rfl
@[simp] theorem outputPass_cnt (s : State) : (outputPass s).cnt = s.cnt := rfl
@[simp] theorem outputPass_csum (s : State) : (outputPass s).csum = s.csum := rfl
@[simp] theorem outputPass_len (s : State) : (outputPass s).len = s.len := rfl
@[simp] theorem outputPass_ovf (s : State) : (outputPass s).ovf = s.ovf := rfl
@[simp] theorem outputPass_skipc (s : State) : (outputPass s).skipc = s.skipc := rfl
@[simp] theorem outputPass_buf (s : State) : (outputPass s).buf = s.buf := rfl
@[simp] theorem outputPass_filtEn (s : State) : (outputPass s).filtEn = s.filtEn := rfl
@[simp] theorem outputPass_filtAddr (s : State) : (outputPass s).filtAddr = s.filtAddr := rfl
@[simp] theorem outputPass_table (s : State) : (outputPass s).table = s.table := rfl
@[simp] theorem outputPass_booted (s : State) : (outputPass s).booted = s.booted := rfl
@[simp] theorem outputPass_out (s : State) : (outputPass s).out = { s.out with pass := filterPass s } := rfl
@[simp] theorem outputPass_inputs (s : State) : (outputPass s).inputs = s.inputs := rfl
@[simp] theorem outputPass_probe (s : State) : (outputPass s).probe = s.probe := rfl

/-! ### exposeCheck -/

@[simp] theorem exposeCheck_phase (s : State) : (exposeCheck s).phase = s.phase := rfl
@[simp] theorem exposeCheck_cnt (s : State) : (exposeCheck s).cnt = s.cnt := rfl
@[simp] theorem exposeCheck_csum (s : State) : (exposeCheck s).csum = s.csum := rfl
@[simp] theorem exposeCheck_len (s : State) : (exposeCheck s).len = s.len := rfl
@[simp] theorem exposeCheck_ovf (s : State) : (exposeCheck s).ovf = s.ovf := rfl
@[simp] theorem exposeCheck_skipc (s : State) : (exposeCheck s).skipc = s.skipc := rfl
@[simp] theorem exposeCheck_buf (s : State) : (exposeCheck s).buf = s.buf := rfl
@[simp] theorem exposeCheck_filtEn (s : State) : (exposeCheck s).filtEn = s.filtEn := rfl
@[simp] theorem exposeCheck_filtAddr (s : State) : (exposeCheck s).filtAddr = s.filtAddr := rfl
@[simp] theorem exposeCheck_table (s : State) : (exposeCheck s).table = s.table := rfl
@[simp] theorem exposeCheck_booted (s : State) : (exposeCheck s).booted = s.booted := rfl
@[simp] theorem exposeCheck_out (s : State) : (exposeCheck s).out = { s.out with chk := true, acc := s.csum } := rfl
@[simp] theorem exposeCheck_inputs (s : State) : (exposeCheck s).inputs = s.inputs := rfl
@[simp] theorem exposeCheck_probe (s : State) : (exposeCheck s).probe = s.probe := rfl

/-! ### attachSum -/

@[simp] theorem attachSum_phase (s : State) : (attachSum s).phase = s.phase := rfl
@[simp] theorem attachSum_cnt (s : State) : (attachSum s).cnt = s.cnt := rfl
@[simp] theorem attachSum_csum (s : State) : (attachSum s).csum = s.csum := rfl
@[simp] theorem attachSum_len (s : State) : (attachSum s).len = s.len := rfl
@[simp] theorem attachSum_ovf (s : State) : (attachSum s).ovf = s.ovf := rfl
@[simp] theorem attachSum_skipc (s : State) : (attachSum s).skipc = s.skipc := rfl
@[simp] theorem attachSum_buf (s : State) : (attachSum s).buf = s.buf := rfl
@[simp] theorem attachSum_filtEn (s : State) : (attachSum s).filtEn = s.filtEn := rfl
@[simp] theorem attachSum_filtAddr (s : State) : (attachSum s).filtAddr = s.filtAddr := rfl
@[simp] theorem attachSum_table (s : State) : (attachSum s).table = s.table := rfl
@[simp] theorem attachSum_booted (s : State) : (attachSum s).booted = s.booted := rfl
@[simp] theorem attachSum_out (s : State) : (attachSum s).out = { s.out with acc := s.csum } := rfl
@[simp] theorem attachSum_inputs (s : State) : (attachSum s).inputs = s.inputs := rfl
@[simp] theorem attachSum_probe (s : State) : (attachSum s).probe = s.probe := rfl

/-! ### outputHit -/

@[simp] theorem outputHit_phase (j : Nat) (e : Entry) (s : State) : (outputHit j e s).phase = s.phase := rfl
@[simp] theorem outputHit_cnt (j : Nat) (e : Entry) (s : State) : (outputHit j e s).cnt = s.cnt := rfl
@[simp] theorem outputHit_csum (j : Nat) (e : Entry) (s : State) : (outputHit j e s).csum = s.csum := rfl
@[simp] theorem outputHit_len (j : Nat) (e : Entry) (s : State) : (outputHit j e s).len = s.len := rfl
@[simp] theorem outputHit_ovf (j : Nat) (e : Entry) (s : State) : (outputHit j e s).ovf = s.ovf := rfl
@[simp] theorem outputHit_skipc (j : Nat) (e : Entry) (s : State) : (outputHit j e s).skipc = s.skipc := rfl
@[simp] theorem outputHit_buf (j : Nat) (e : Entry) (s : State) : (outputHit j e s).buf = s.buf := rfl
@[simp] theorem outputHit_filtEn (j : Nat) (e : Entry) (s : State) : (outputHit j e s).filtEn = s.filtEn := rfl
@[simp] theorem outputHit_filtAddr (j : Nat) (e : Entry) (s : State) : (outputHit j e s).filtAddr = s.filtAddr := rfl
@[simp] theorem outputHit_table (j : Nat) (e : Entry) (s : State) : (outputHit j e s).table = s.table := rfl
@[simp] theorem outputHit_booted (j : Nat) (e : Entry) (s : State) : (outputHit j e s).booted = s.booted := rfl
@[simp] theorem outputHit_out (j : Nat) (e : Entry) (s : State) : (outputHit j e s).out = { s.out with mHit := true, mIdx := BitVec.ofNat 5 j, mHk := e.hk.code } := rfl
@[simp] theorem outputHit_inputs (j : Nat) (e : Entry) (s : State) : (outputHit j e s).inputs = s.inputs := rfl
@[simp] theorem outputHit_probe (j : Nat) (e : Entry) (s : State) : (outputHit j e s).probe = s.probe := rfl

/-! ### unrecognized -/

@[simp] theorem unrecognized_phase (s : State) : (unrecognized s).phase = s.phase := rfl
@[simp] theorem unrecognized_cnt (s : State) : (unrecognized s).cnt = s.cnt := rfl
@[simp] theorem unrecognized_csum (s : State) : (unrecognized s).csum = s.csum := rfl
@[simp] theorem unrecognized_len (s : State) : (unrecognized s).len = s.len := rfl
@[simp] theorem unrecognized_ovf (s : State) : (unrecognized s).ovf = s.ovf := rfl
@[simp] theorem unrecognized_skipc (s : State) : (unrecognized s).skipc = s.skipc := rfl
@[simp] theorem unrecognized_buf (s : State) : (unrecognized s).buf = s.buf := rfl
@[simp] theorem unrecognized_filtEn (s : State) : (unrecognized s).filtEn = s.filtEn := rfl
@[simp] theorem unrecognized_filtAddr (s : State) : (unrecognized s).filtAddr = s.filtAddr := rfl
@[simp] theorem unrecognized_table (s : State) : (unrecognized s).table = s.table := rfl
@[simp] theorem unrecognized_booted (s : State) : (unrecognized s).booted = s.booted := rfl
@[simp] theorem unrecognized_out (s : State) : (unrecognized s).out = { s.out with mHit := false, mIdx := 0, mHk := 0, fSel := .fNone, fCode := .noField } := rfl
@[simp] theorem unrecognized_inputs (s : State) : (unrecognized s).inputs = s.inputs := rfl
@[simp] theorem unrecognized_probe (s : State) : (unrecognized s).probe = s.probe := rfl

/-! ### runField -/

@[simp] theorem runField_phase (fs : FSel) (p : Offset) (s : State) : (runField fs p s).phase = s.phase := rfl
@[simp] theorem runField_cnt (fs : FSel) (p : Offset) (s : State) : (runField fs p s).cnt = s.cnt := rfl
@[simp] theorem runField_csum (fs : FSel) (p : Offset) (s : State) : (runField fs p s).csum = s.csum := rfl
@[simp] theorem runField_len (fs : FSel) (p : Offset) (s : State) : (runField fs p s).len = s.len := rfl
@[simp] theorem runField_ovf (fs : FSel) (p : Offset) (s : State) : (runField fs p s).ovf = s.ovf := rfl
@[simp] theorem runField_skipc (fs : FSel) (p : Offset) (s : State) : (runField fs p s).skipc = s.skipc := rfl
@[simp] theorem runField_buf (fs : FSel) (p : Offset) (s : State) : (runField fs p s).buf = s.buf := rfl
@[simp] theorem runField_filtEn (fs : FSel) (p : Offset) (s : State) : (runField fs p s).filtEn = s.filtEn := rfl
@[simp] theorem runField_filtAddr (fs : FSel) (p : Offset) (s : State) : (runField fs p s).filtAddr = s.filtAddr := rfl
@[simp] theorem runField_table (fs : FSel) (p : Offset) (s : State) : (runField fs p s).table = s.table := rfl
@[simp] theorem runField_booted (fs : FSel) (p : Offset) (s : State) : (runField fs p s).booted = s.booted := rfl
@[simp] theorem runField_out (fs : FSel) (p : Offset) (s : State) : (runField fs p s).out = { s.out with fSel := fs, fCode := (fieldOut fs p.toNat s).code, fRaw := (fieldOut fs p.toNat s).raw, c10 := (fieldOut fs p.toNat s).c10, f10 := (fieldOut fs p.toNat s).f10 } := rfl
@[simp] theorem runField_inputs (fs : FSel) (p : Offset) (s : State) : (runField fs p s).inputs = s.inputs := rfl
@[simp] theorem runField_probe (fs : FSel) (p : Offset) (s : State) : (runField fs p s).probe = s.probe := rfl

/-! ### frameEndClear -/

@[simp] theorem frameEndClear_phase (s : State) : (frameEndClear s).phase = .idle := rfl
@[simp] theorem frameEndClear_cnt (s : State) : (frameEndClear s).cnt = 0 := rfl
@[simp] theorem frameEndClear_csum (s : State) : (frameEndClear s).csum = 0 := rfl
@[simp] theorem frameEndClear_len (s : State) : (frameEndClear s).len = 0 := rfl
@[simp] theorem frameEndClear_ovf (s : State) : (frameEndClear s).ovf = false := rfl
@[simp] theorem frameEndClear_skipc (s : State) : (frameEndClear s).skipc = false := rfl
@[simp] theorem frameEndClear_buf (s : State) : (frameEndClear s).buf = s.buf := rfl
@[simp] theorem frameEndClear_filtEn (s : State) : (frameEndClear s).filtEn = s.filtEn := rfl
@[simp] theorem frameEndClear_filtAddr (s : State) : (frameEndClear s).filtAddr = s.filtAddr := rfl
@[simp] theorem frameEndClear_table (s : State) : (frameEndClear s).table = s.table := rfl
@[simp] theorem frameEndClear_booted (s : State) : (frameEndClear s).booted = s.booted := rfl
@[simp] theorem frameEndClear_out (s : State) : (frameEndClear s).out = s.out := rfl
@[simp] theorem frameEndClear_inputs (s : State) : (frameEndClear s).inputs = s.inputs := rfl
@[simp] theorem frameEndClear_probe (s : State) : (frameEndClear s).probe = s.probe := rfl

/-! ### condemnOverflow -/

@[simp] theorem condemnOverflow_phase (s : State) : (condemnOverflow s).phase = .skip := rfl
@[simp] theorem condemnOverflow_cnt (s : State) : (condemnOverflow s).cnt = s.cnt := rfl
@[simp] theorem condemnOverflow_csum (s : State) : (condemnOverflow s).csum = s.csum := rfl
@[simp] theorem condemnOverflow_len (s : State) : (condemnOverflow s).len = s.len := rfl
@[simp] theorem condemnOverflow_ovf (s : State) : (condemnOverflow s).ovf = true := rfl
@[simp] theorem condemnOverflow_skipc (s : State) : (condemnOverflow s).skipc = false := rfl
@[simp] theorem condemnOverflow_buf (s : State) : (condemnOverflow s).buf = s.buf := rfl
@[simp] theorem condemnOverflow_filtEn (s : State) : (condemnOverflow s).filtEn = s.filtEn := rfl
@[simp] theorem condemnOverflow_filtAddr (s : State) : (condemnOverflow s).filtAddr = s.filtAddr := rfl
@[simp] theorem condemnOverflow_table (s : State) : (condemnOverflow s).table = s.table := rfl
@[simp] theorem condemnOverflow_booted (s : State) : (condemnOverflow s).booted = s.booted := rfl
@[simp] theorem condemnOverflow_out (s : State) : (condemnOverflow s).out = s.out := rfl
@[simp] theorem condemnOverflow_inputs (s : State) : (condemnOverflow s).inputs = s.inputs := rfl
@[simp] theorem condemnOverflow_probe (s : State) : (condemnOverflow s).probe = s.probe := rfl

/-! ### condemnMismatch -/

@[simp] theorem condemnMismatch_phase (s : State) : (condemnMismatch s).phase = .skip := rfl
@[simp] theorem condemnMismatch_cnt (s : State) : (condemnMismatch s).cnt = s.cnt := rfl
@[simp] theorem condemnMismatch_csum (s : State) : (condemnMismatch s).csum = 0 := rfl
@[simp] theorem condemnMismatch_len (s : State) : (condemnMismatch s).len = s.len := rfl
@[simp] theorem condemnMismatch_ovf (s : State) : (condemnMismatch s).ovf = s.ovf := rfl
@[simp] theorem condemnMismatch_skipc (s : State) : (condemnMismatch s).skipc = true := rfl
@[simp] theorem condemnMismatch_buf (s : State) : (condemnMismatch s).buf = s.buf := rfl
@[simp] theorem condemnMismatch_filtEn (s : State) : (condemnMismatch s).filtEn = s.filtEn := rfl
@[simp] theorem condemnMismatch_filtAddr (s : State) : (condemnMismatch s).filtAddr = s.filtAddr := rfl
@[simp] theorem condemnMismatch_table (s : State) : (condemnMismatch s).table = s.table := rfl
@[simp] theorem condemnMismatch_booted (s : State) : (condemnMismatch s).booted = s.booted := rfl
@[simp] theorem condemnMismatch_out (s : State) : (condemnMismatch s).out = s.out := rfl
@[simp] theorem condemnMismatch_inputs (s : State) : (condemnMismatch s).inputs = s.inputs := rfl
@[simp] theorem condemnMismatch_probe (s : State) : (condemnMismatch s).probe = s.probe := rfl

/-! ### countByte -/

@[simp] theorem countByte_phase (b : Byte) (s : State) : (countByte b s).phase = s.phase := rfl
@[simp] theorem countByte_cnt (b : Byte) (s : State) : (countByte b s).cnt = s.cnt + 1 := rfl
@[simp] theorem countByte_csum (b : Byte) (s : State) : (countByte b s).csum = s.csum + b := rfl
@[simp] theorem countByte_len (b : Byte) (s : State) : (countByte b s).len = s.len := rfl
@[simp] theorem countByte_ovf (b : Byte) (s : State) : (countByte b s).ovf = s.ovf := rfl
@[simp] theorem countByte_skipc (b : Byte) (s : State) : (countByte b s).skipc = s.skipc := rfl
@[simp] theorem countByte_buf (b : Byte) (s : State) : (countByte b s).buf = s.buf := rfl
@[simp] theorem countByte_filtEn (b : Byte) (s : State) : (countByte b s).filtEn = s.filtEn := rfl
@[simp] theorem countByte_filtAddr (b : Byte) (s : State) : (countByte b s).filtAddr = s.filtAddr := rfl
@[simp] theorem countByte_table (b : Byte) (s : State) : (countByte b s).table = s.table := rfl
@[simp] theorem countByte_booted (b : Byte) (s : State) : (countByte b s).booted = s.booted := rfl
@[simp] theorem countByte_out (b : Byte) (s : State) : (countByte b s).out = s.out := rfl
@[simp] theorem countByte_inputs (b : Byte) (s : State) : (countByte b s).inputs = s.inputs := rfl
@[simp] theorem countByte_probe (b : Byte) (s : State) : (countByte b s).probe = s.probe := rfl

/-! ### resetStep -/

@[simp] theorem resetStep_phase (en : Bool) (addr : Byte) (s : State) : (resetStep en addr s).phase = .idle := rfl
@[simp] theorem resetStep_cnt (en : Bool) (addr : Byte) (s : State) : (resetStep en addr s).cnt = 0 := rfl
@[simp] theorem resetStep_csum (en : Bool) (addr : Byte) (s : State) : (resetStep en addr s).csum = 0 := rfl
@[simp] theorem resetStep_len (en : Bool) (addr : Byte) (s : State) : (resetStep en addr s).len = 0 := rfl
@[simp] theorem resetStep_ovf (en : Bool) (addr : Byte) (s : State) : (resetStep en addr s).ovf = false := rfl
@[simp] theorem resetStep_skipc (en : Bool) (addr : Byte) (s : State) : (resetStep en addr s).skipc = false := rfl
@[simp] theorem resetStep_buf (en : Bool) (addr : Byte) (s : State) : (resetStep en addr s).buf = s.buf := rfl
@[simp] theorem resetStep_filtEn (en : Bool) (addr : Byte) (s : State) : (resetStep en addr s).filtEn = en := rfl
@[simp] theorem resetStep_filtAddr (en : Bool) (addr : Byte) (s : State) : (resetStep en addr s).filtAddr = addr := rfl
@[simp] theorem resetStep_table (en : Bool) (addr : Byte) (s : State) : (resetStep en addr s).table = s.table := rfl
@[simp] theorem resetStep_booted (en : Bool) (addr : Byte) (s : State) : (resetStep en addr s).booted = true := rfl
@[simp] theorem resetStep_out (en : Bool) (addr : Byte) (s : State) : (resetStep en addr s).out = { OutRecord.zero with ev := .resetDone } := rfl
@[simp] theorem resetStep_inputs (en : Bool) (addr : Byte) (s : State) : (resetStep en addr s).inputs = s.inputs := rfl
@[simp] theorem resetStep_probe (en : Bool) (addr : Byte) (s : State) : (resetStep en addr s).probe = s.probe := rfl

/-! ### frameStart -/

@[simp] theorem frameStart_filtEn (s : State) : (frameStart s).filtEn = s.filtEn := by
  unfold frameStart; split <;> rfl
@[simp] theorem frameStart_filtAddr (s : State) : (frameStart s).filtAddr = s.filtAddr := by
  unfold frameStart; split <;> rfl
@[simp] theorem frameStart_table (s : State) : (frameStart s).table = s.table := by
  unfold frameStart; split <;> rfl
@[simp] theorem frameStart_booted (s : State) : (frameStart s).booted = s.booted := by
  unfold frameStart; split <;> rfl
@[simp] theorem frameStart_inputs (s : State) : (frameStart s).inputs = s.inputs := by
  unfold frameStart; split <;> rfl
@[simp] theorem frameStart_probe (s : State) : (frameStart s).probe = s.probe := by
  unfold frameStart; split <;> rfl
@[simp] theorem frameStart_buf (s : State) : (frameStart s).buf = s.buf := by
  unfold frameStart; split <;> rfl
@[simp] theorem frameStart_out (s : State) : (frameStart s).out = s.out := by
  unfold frameStart; split <;> rfl

/-! ### storeOrOverflow -/

@[simp] theorem storeOrOverflow_filtEn (n : Count) (b : Byte) (s : State) : (storeOrOverflow n b s).filtEn = s.filtEn := by
  unfold storeOrOverflow; split <;> rfl
@[simp] theorem storeOrOverflow_filtAddr (n : Count) (b : Byte) (s : State) : (storeOrOverflow n b s).filtAddr = s.filtAddr := by
  unfold storeOrOverflow; split <;> rfl
@[simp] theorem storeOrOverflow_table (n : Count) (b : Byte) (s : State) : (storeOrOverflow n b s).table = s.table := by
  unfold storeOrOverflow; split <;> rfl
@[simp] theorem storeOrOverflow_booted (n : Count) (b : Byte) (s : State) : (storeOrOverflow n b s).booted = s.booted := by
  unfold storeOrOverflow; split <;> rfl
@[simp] theorem storeOrOverflow_inputs (n : Count) (b : Byte) (s : State) : (storeOrOverflow n b s).inputs = s.inputs := by
  unfold storeOrOverflow; split <;> rfl
@[simp] theorem storeOrOverflow_probe (n : Count) (b : Byte) (s : State) : (storeOrOverflow n b s).probe = s.probe := by
  unfold storeOrOverflow; split <;> rfl
@[simp] theorem storeOrOverflow_cnt (n : Count) (b : Byte) (s : State) : (storeOrOverflow n b s).cnt = s.cnt := by
  unfold storeOrOverflow; split <;> rfl
@[simp] theorem storeOrOverflow_csum (n : Count) (b : Byte) (s : State) : (storeOrOverflow n b s).csum = s.csum := by
  unfold storeOrOverflow; split <;> rfl
@[simp] theorem storeOrOverflow_len (n : Count) (b : Byte) (s : State) : (storeOrOverflow n b s).len = s.len := by
  unfold storeOrOverflow; split <;> rfl

/-! ### latchLength -/

@[simp] theorem latchLength_filtEn (n : Count) (b : Byte) (s : State) : (latchLength n b s).filtEn = s.filtEn := by
  unfold latchLength; split <;> rfl
@[simp] theorem latchLength_filtAddr (n : Count) (b : Byte) (s : State) : (latchLength n b s).filtAddr = s.filtAddr := by
  unfold latchLength; split <;> rfl
@[simp] theorem latchLength_table (n : Count) (b : Byte) (s : State) : (latchLength n b s).table = s.table := by
  unfold latchLength; split <;> rfl
@[simp] theorem latchLength_booted (n : Count) (b : Byte) (s : State) : (latchLength n b s).booted = s.booted := by
  unfold latchLength; split <;> rfl
@[simp] theorem latchLength_inputs (n : Count) (b : Byte) (s : State) : (latchLength n b s).inputs = s.inputs := by
  unfold latchLength; split <;> rfl
@[simp] theorem latchLength_probe (n : Count) (b : Byte) (s : State) : (latchLength n b s).probe = s.probe := by
  unfold latchLength; split <;> rfl
@[simp] theorem latchLength_phase (n : Count) (b : Byte) (s : State) : (latchLength n b s).phase = s.phase := by
  unfold latchLength; split <;> rfl
@[simp] theorem latchLength_cnt (n : Count) (b : Byte) (s : State) : (latchLength n b s).cnt = s.cnt := by
  unfold latchLength; split <;> rfl
@[simp] theorem latchLength_csum (n : Count) (b : Byte) (s : State) : (latchLength n b s).csum = s.csum := by
  unfold latchLength; split <;> rfl
@[simp] theorem latchLength_ovf (n : Count) (b : Byte) (s : State) : (latchLength n b s).ovf = s.ovf := by
  unfold latchLength; split <;> rfl
@[simp] theorem latchLength_skipc (n : Count) (b : Byte) (s : State) : (latchLength n b s).skipc = s.skipc := by
  unfold latchLength; split <;> rfl
@[simp] theorem latchLength_buf (n : Count) (b : Byte) (s : State) : (latchLength n b s).buf = s.buf := by
  unfold latchLength; split <;> rfl
@[simp] theorem latchLength_out (n : Count) (b : Byte) (s : State) : (latchLength n b s).out = s.out := by
  unfold latchLength; split <;> rfl

/-! ### precheck -/

@[simp] theorem precheck_filtEn (n1 : Count) (s : State) : (precheck n1 s).filtEn = s.filtEn := by
  unfold precheck; split <;> rfl
@[simp] theorem precheck_filtAddr (n1 : Count) (s : State) : (precheck n1 s).filtAddr = s.filtAddr := by
  unfold precheck; split <;> rfl
@[simp] theorem precheck_table (n1 : Count) (s : State) : (precheck n1 s).table = s.table := by
  unfold precheck; split <;> rfl
@[simp] theorem precheck_booted (n1 : Count) (s : State) : (precheck n1 s).booted = s.booted := by
  unfold precheck; split <;> rfl
@[simp] theorem precheck_inputs (n1 : Count) (s : State) : (precheck n1 s).inputs = s.inputs := by
  unfold precheck; split <;> rfl
@[simp] theorem precheck_probe (n1 : Count) (s : State) : (precheck n1 s).probe = s.probe := by
  unfold precheck; split <;> rfl
@[simp] theorem precheck_cnt (n1 : Count) (s : State) : (precheck n1 s).cnt = s.cnt := by
  unfold precheck; split <;> rfl
@[simp] theorem precheck_len (n1 : Count) (s : State) : (precheck n1 s).len = s.len := by
  unfold precheck; split <;> rfl
@[simp] theorem precheck_buf (n1 : Count) (s : State) : (precheck n1 s).buf = s.buf := by
  unfold precheck; split <;> rfl
@[simp] theorem precheck_ovf (n1 : Count) (s : State) : (precheck n1 s).ovf = s.ovf := by
  unfold precheck; split <;> rfl

@[simp] theorem extract_eq (hk : HandlerKind) (p : Offset) (s : State) : extract hk p s = runField (fselOf hk) p s := rfl

/-! ### matchFrame -/

@[simp] theorem matchFrame_filtEn (n : Nat) (s : State) : (matchFrame n s).filtEn = s.filtEn := by
  unfold matchFrame; split <;> rfl
@[simp] theorem matchFrame_filtAddr (n : Nat) (s : State) : (matchFrame n s).filtAddr = s.filtAddr := by
  unfold matchFrame; split <;> rfl
@[simp] theorem matchFrame_table (n : Nat) (s : State) : (matchFrame n s).table = s.table := by
  unfold matchFrame; split <;> rfl
@[simp] theorem matchFrame_booted (n : Nat) (s : State) : (matchFrame n s).booted = s.booted := by
  unfold matchFrame; split <;> rfl
@[simp] theorem matchFrame_inputs (n : Nat) (s : State) : (matchFrame n s).inputs = s.inputs := by
  unfold matchFrame; split <;> rfl
@[simp] theorem matchFrame_probe (n : Nat) (s : State) : (matchFrame n s).probe = s.probe := by
  unfold matchFrame; split <;> rfl
@[simp] theorem matchFrame_phase (n : Nat) (s : State) : (matchFrame n s).phase = s.phase := by
  unfold matchFrame; split <;> rfl
@[simp] theorem matchFrame_cnt (n : Nat) (s : State) : (matchFrame n s).cnt = s.cnt := by
  unfold matchFrame; split <;> rfl
@[simp] theorem matchFrame_csum (n : Nat) (s : State) : (matchFrame n s).csum = s.csum := by
  unfold matchFrame; split <;> rfl
@[simp] theorem matchFrame_len (n : Nat) (s : State) : (matchFrame n s).len = s.len := by
  unfold matchFrame; split <;> rfl
@[simp] theorem matchFrame_ovf (n : Nat) (s : State) : (matchFrame n s).ovf = s.ovf := by
  unfold matchFrame; split <;> rfl
@[simp] theorem matchFrame_skipc (n : Nat) (s : State) : (matchFrame n s).skipc = s.skipc := by
  unfold matchFrame; split <;> rfl
@[simp] theorem matchFrame_buf (n : Nat) (s : State) : (matchFrame n s).buf = s.buf := by
  unfold matchFrame; split <;> rfl

/-! ### completeReport -/

@[simp] theorem completeReport_filtEn (n1 : Count) (s : State) : (completeReport n1 s).filtEn = s.filtEn := by
  simp [completeReport]
@[simp] theorem completeReport_filtAddr (n1 : Count) (s : State) : (completeReport n1 s).filtAddr = s.filtAddr := by
  simp [completeReport]
@[simp] theorem completeReport_table (n1 : Count) (s : State) : (completeReport n1 s).table = s.table := by
  simp [completeReport]
@[simp] theorem completeReport_booted (n1 : Count) (s : State) : (completeReport n1 s).booted = s.booted := by
  simp [completeReport]
@[simp] theorem completeReport_inputs (n1 : Count) (s : State) : (completeReport n1 s).inputs = s.inputs := by
  simp [completeReport]
@[simp] theorem completeReport_probe (n1 : Count) (s : State) : (completeReport n1 s).probe = s.probe := by
  simp [completeReport]
@[simp] theorem completeReport_phase (n1 : Count) (s : State) : (completeReport n1 s).phase = s.phase := by
  simp [completeReport]
@[simp] theorem completeReport_cnt (n1 : Count) (s : State) : (completeReport n1 s).cnt = s.cnt := by
  simp [completeReport]
@[simp] theorem completeReport_csum (n1 : Count) (s : State) : (completeReport n1 s).csum = s.csum := by
  simp [completeReport]
@[simp] theorem completeReport_len (n1 : Count) (s : State) : (completeReport n1 s).len = s.len := by
  simp [completeReport]
@[simp] theorem completeReport_ovf (n1 : Count) (s : State) : (completeReport n1 s).ovf = s.ovf := by
  simp [completeReport]
@[simp] theorem completeReport_skipc (n1 : Count) (s : State) : (completeReport n1 s).skipc = s.skipc := by
  simp [completeReport]
@[simp] theorem completeReport_buf (n1 : Count) (s : State) : (completeReport n1 s).buf = s.buf := by
  simp [completeReport]

/-! ### complete -/

@[simp] theorem complete_filtEn (n1 : Count) (s : State) : (complete n1 s).filtEn = s.filtEn := by
  simp [complete]
@[simp] theorem complete_filtAddr (n1 : Count) (s : State) : (complete n1 s).filtAddr = s.filtAddr := by
  simp [complete]
@[simp] theorem complete_table (n1 : Count) (s : State) : (complete n1 s).table = s.table := by
  simp [complete]
@[simp] theorem complete_booted (n1 : Count) (s : State) : (complete n1 s).booted = s.booted := by
  simp [complete]
@[simp] theorem complete_inputs (n1 : Count) (s : State) : (complete n1 s).inputs = s.inputs := by
  simp [complete]
@[simp] theorem complete_probe (n1 : Count) (s : State) : (complete n1 s).probe = s.probe := by
  simp [complete]
@[simp] theorem complete_buf (n1 : Count) (s : State) : (complete n1 s).buf = s.buf := by
  simp [complete]

/-! ### continuing -/

@[simp] theorem continuing_filtEn (s : State) : (continuing s).filtEn = s.filtEn := by
  unfold continuing; split <;> rfl
@[simp] theorem continuing_filtAddr (s : State) : (continuing s).filtAddr = s.filtAddr := by
  unfold continuing; split <;> rfl
@[simp] theorem continuing_table (s : State) : (continuing s).table = s.table := by
  unfold continuing; split <;> rfl
@[simp] theorem continuing_booted (s : State) : (continuing s).booted = s.booted := by
  unfold continuing; split <;> rfl
@[simp] theorem continuing_inputs (s : State) : (continuing s).inputs = s.inputs := by
  unfold continuing; split <;> rfl
@[simp] theorem continuing_probe (s : State) : (continuing s).probe = s.probe := by
  unfold continuing; split <;> rfl
@[simp] theorem continuing_phase (s : State) : (continuing s).phase = s.phase := by
  unfold continuing; split <;> rfl
@[simp] theorem continuing_cnt (s : State) : (continuing s).cnt = s.cnt := by
  unfold continuing; split <;> rfl
@[simp] theorem continuing_csum (s : State) : (continuing s).csum = s.csum := by
  unfold continuing; split <;> rfl
@[simp] theorem continuing_len (s : State) : (continuing s).len = s.len := by
  unfold continuing; split <;> rfl
@[simp] theorem continuing_ovf (s : State) : (continuing s).ovf = s.ovf := by
  unfold continuing; split <;> rfl
@[simp] theorem continuing_skipc (s : State) : (continuing s).skipc = s.skipc := by
  unfold continuing; split <;> rfl
@[simp] theorem continuing_buf (s : State) : (continuing s).buf = s.buf := by
  unfold continuing; split <;> rfl

/-! ### skipEnd -/

@[simp] theorem skipEnd_filtEn (s : State) : (skipEnd s).filtEn = s.filtEn := by
  unfold skipEnd; split <;> rfl
@[simp] theorem skipEnd_filtAddr (s : State) : (skipEnd s).filtAddr = s.filtAddr := by
  unfold skipEnd; split <;> rfl
@[simp] theorem skipEnd_table (s : State) : (skipEnd s).table = s.table := by
  unfold skipEnd; split <;> rfl
@[simp] theorem skipEnd_booted (s : State) : (skipEnd s).booted = s.booted := by
  unfold skipEnd; split <;> rfl
@[simp] theorem skipEnd_inputs (s : State) : (skipEnd s).inputs = s.inputs := by
  unfold skipEnd; split <;> rfl
@[simp] theorem skipEnd_probe (s : State) : (skipEnd s).probe = s.probe := by
  unfold skipEnd; split <;> rfl
@[simp] theorem skipEnd_buf (s : State) : (skipEnd s).buf = s.buf := by
  unfold skipEnd; split <;> rfl

/-! ### accumulate -/

@[simp] theorem accumulate_filtEn (n : Count) (b : Byte) (s : State) : (accumulate n b s).filtEn = s.filtEn := by
  unfold accumulate; dsimp only; (repeat' split) <;> simp
@[simp] theorem accumulate_filtAddr (n : Count) (b : Byte) (s : State) : (accumulate n b s).filtAddr = s.filtAddr := by
  unfold accumulate; dsimp only; (repeat' split) <;> simp
@[simp] theorem accumulate_table (n : Count) (b : Byte) (s : State) : (accumulate n b s).table = s.table := by
  unfold accumulate; dsimp only; (repeat' split) <;> simp
@[simp] theorem accumulate_booted (n : Count) (b : Byte) (s : State) : (accumulate n b s).booted = s.booted := by
  unfold accumulate; dsimp only; (repeat' split) <;> simp
@[simp] theorem accumulate_inputs (n : Count) (b : Byte) (s : State) : (accumulate n b s).inputs = s.inputs := by
  unfold accumulate; dsimp only; (repeat' split) <;> simp
@[simp] theorem accumulate_probe (n : Count) (b : Byte) (s : State) : (accumulate n b s).probe = s.probe := by
  unfold accumulate; dsimp only; (repeat' split) <;> simp
@[simp] theorem accumulate_cnt (n : Count) (b : Byte) (s : State) : (accumulate n b s).cnt = s.cnt := by
  unfold accumulate; dsimp only; (repeat' split) <;> simp

/-! ### conclude -/

@[simp] theorem conclude_filtEn (n1 : Count) (s : State) : (conclude n1 s).filtEn = s.filtEn := by
  unfold conclude; split <;> [skip; split] <;> simp
@[simp] theorem conclude_filtAddr (n1 : Count) (s : State) : (conclude n1 s).filtAddr = s.filtAddr := by
  unfold conclude; split <;> [skip; split] <;> simp
@[simp] theorem conclude_table (n1 : Count) (s : State) : (conclude n1 s).table = s.table := by
  unfold conclude; split <;> [skip; split] <;> simp
@[simp] theorem conclude_booted (n1 : Count) (s : State) : (conclude n1 s).booted = s.booted := by
  unfold conclude; split <;> [skip; split] <;> simp
@[simp] theorem conclude_inputs (n1 : Count) (s : State) : (conclude n1 s).inputs = s.inputs := by
  unfold conclude; split <;> [skip; split] <;> simp
@[simp] theorem conclude_probe (n1 : Count) (s : State) : (conclude n1 s).probe = s.probe := by
  unfold conclude; split <;> [skip; split] <;> simp
@[simp] theorem conclude_buf (n1 : Count) (s : State) : (conclude n1 s).buf = s.buf := by
  unfold conclude; split <;> [skip; split] <;> simp

/-! ### byteStep -/

@[simp] theorem byteStep_filtEn (b : Byte) (s : State) : (byteStep b s).filtEn = s.filtEn := by
  simp [byteStep]
@[simp] theorem byteStep_filtAddr (b : Byte) (s : State) : (byteStep b s).filtAddr = s.filtAddr := by
  simp [byteStep]
@[simp] theorem byteStep_table (b : Byte) (s : State) : (byteStep b s).table = s.table := by
  simp [byteStep]
@[simp] theorem byteStep_booted (b : Byte) (s : State) : (byteStep b s).booted = s.booted := by
  simp [byteStep]
@[simp] theorem byteStep_inputs (b : Byte) (s : State) : (byteStep b s).inputs = s.inputs := by
  simp [byteStep]
@[simp] theorem byteStep_probe (b : Byte) (s : State) : (byteStep b s).probe = s.probe := by
  simp [byteStep]

/-! ### timeoutStep -/

@[simp] theorem timeoutStep_filtEn (s : State) : (timeoutStep s).filtEn = s.filtEn := by
  unfold timeoutStep; dsimp only; split <;> simp
@[simp] theorem timeoutStep_filtAddr (s : State) : (timeoutStep s).filtAddr = s.filtAddr := by
  unfold timeoutStep; dsimp only; split <;> simp
@[simp] theorem timeoutStep_table (s : State) : (timeoutStep s).table = s.table := by
  unfold timeoutStep; dsimp only; split <;> simp
@[simp] theorem timeoutStep_booted (s : State) : (timeoutStep s).booted = s.booted := by
  unfold timeoutStep; dsimp only; split <;> simp
@[simp] theorem timeoutStep_inputs (s : State) : (timeoutStep s).inputs = s.inputs := by
  unfold timeoutStep; dsimp only; split <;> simp
@[simp] theorem timeoutStep_probe (s : State) : (timeoutStep s).probe = s.probe := by
  unfold timeoutStep; dsimp only; split <;> simp
@[simp] theorem timeoutStep_buf (s : State) : (timeoutStep s).buf = s.buf := by
  unfold timeoutStep; dsimp only; split <;> simp

end Sys2Proof.Machine
end

