-- ==== Sys2Proof/Laws/Memory.lean ====
section
/-! SUPPORT. The packet buffer's laws: read after write, the canonical form, and that equal readings of canonical buffers
are equal data. -/

namespace Sys2Proof.Machine

@[simp] theorem Memory.read_nil (i : Nat) : Memory.read [] i = 0 := rfl

theorem Memory.read_cons (k : Nat) (v : Byte) (m : Memory) (i : Nat) :
    Memory.read ((k, v) :: m) i = if k = i then v else Memory.read m i := rfl

/-- A cell below every listed one reads as unlisted. -/
theorem Memory.read_below : ∀ (m : Memory) (lo i : Nat), m.wfFrom lo = true → i < lo → m.read i = 0
  | [], _, _, _, _ => rfl
  | (k, v) :: rest, lo, i, h, hi => by
    simp only [Memory.wfFrom, Bool.and_eq_true, decide_eq_true_eq] at h
    rw [Memory.read_cons, if_neg (by omega)]
    exact Memory.read_below rest (k + 1) i h.2 (by omega)

/-- A cell at or above `BUF_CAP` is not listed (R51). -/
theorem Memory.read_above : ∀ (m : Memory) (lo i : Nat), m.wfFrom lo = true → Config.bufCap ≤ i → m.read i = 0
  | [], _, _, _, _ => rfl
  | (k, v) :: rest, lo, i, h, hi => by
    simp only [Memory.wfFrom, Bool.and_eq_true, decide_eq_true_eq] at h
    rw [Memory.read_cons, if_neg (by omega)]
    exact Memory.read_above rest (k + 1) i h.2 hi

theorem Memory.wfFrom_mono : ∀ (m : Memory) (lo lo' : Nat), m.wfFrom lo = true → lo' ≤ lo → m.wfFrom lo' = true
  | [], _, _, _, _ => rfl
  | (k, v) :: rest, lo, lo', h, hl => by
    simp only [Memory.wfFrom, Bool.and_eq_true, decide_eq_true_eq] at h ⊢
    exact ⟨⟨⟨by omega, h.1.1.2⟩, h.1.2⟩, h.2⟩

theorem Memory.read_put (i : Nat) (v : Byte) (rest : Memory) (h : rest.wfFrom (i + 1) = true) (j : Nat) :
    Memory.read (Memory.put i v rest) j = if i = j then v else rest.read j := by
  unfold Memory.put
  split
  · next hv =>
    split
    · next hij => subst hij; rw [Memory.read_below rest (i + 1) i h (by omega), hv]; rfl
    · rfl
  · rfl

theorem Memory.wfFrom_put (i lo : Nat) (v : Byte) (rest : Memory) (h : rest.wfFrom (i + 1) = true)
    (hl : lo ≤ i) (hi : i < Config.bufCap) : (Memory.put i v rest).wfFrom lo = true := by
  unfold Memory.put
  split
  · exact Memory.wfFrom_mono rest _ _ h (by omega)
  · next hv => simp [Memory.wfFrom, hl, hi, hv, h]

/-- A write below `BUF_CAP` keeps the canonical form. -/
theorem Memory.wfFrom_write : ∀ (m : Memory) (lo i : Nat) (v : Byte), m.wfFrom lo = true → lo ≤ i → i < Config.bufCap →
    (m.write i v).wfFrom lo = true
  | [], lo, i, v, _, hl, hi => Memory.wfFrom_put i lo v [] rfl hl hi
  | (k, w) :: rest, lo, i, v, h, hl, hi => by
    have h' := h
    simp only [Memory.wfFrom, Bool.and_eq_true, decide_eq_true_eq] at h'
    unfold Memory.write
    split
    · next hik =>
      exact Memory.wfFrom_put i lo v _ (by simp only [Memory.wfFrom, Bool.and_eq_true, decide_eq_true_eq]; exact ⟨⟨⟨by omega, h'.1.1.2⟩, h'.1.2⟩, h'.2⟩) hl hi
    · next hik =>
      split
      · next hki => subst hki; exact Memory.wfFrom_put k lo v rest h'.2 hl hi
      · next hki =>
        simp only [Memory.wfFrom, Bool.and_eq_true, decide_eq_true_eq]
        exact ⟨h'.1, Memory.wfFrom_write rest (k + 1) i v h'.2 (by omega) hi⟩

/-- Every memory operation keeps the canonical form: the one operation that writes is `Memory.write`. -/
theorem Memory.wf_write (m : Memory) (i : Nat) (v : Byte) (h : m.wf = true) (hi : i < Config.bufCap) :
    (m.write i v).wf = true :=
  Memory.wfFrom_write m 0 i v h (Nat.zero_le i) hi

/-- A read after a write: the written cell reads the value, every other cell as before. -/
theorem Memory.read_write_from : ∀ (m : Memory) (lo i : Nat) (v : Byte) (j : Nat), m.wfFrom lo = true →
    (m.write i v).read j = if i = j then v else m.read j
  | [], _, i, v, j, _ => Memory.read_put i v [] rfl j
  | (k, w) :: rest, lo, i, v, j, h => by
    have h' := h
    simp only [Memory.wfFrom, Bool.and_eq_true, decide_eq_true_eq] at h'
    unfold Memory.write
    split
    · next hik =>
      exact Memory.read_put i v _ (by simp only [Memory.wfFrom, Bool.and_eq_true, decide_eq_true_eq]; exact ⟨⟨⟨by omega, h'.1.1.2⟩, h'.1.2⟩, h'.2⟩) j
    · next hik =>
      split
      · next hki =>
        subst hki
        rw [Memory.read_put k v rest h'.2, Memory.read_cons]
        split <;> rfl
      · next hki =>
        rw [Memory.read_cons, Memory.read_write_from rest (k + 1) i v j h'.2, Memory.read_cons]
        split
        · next hkj => subst hkj; rw [if_neg (Ne.symm hki)]
        · rfl

theorem Memory.read_write (m : Memory) (i : Nat) (v : Byte) (j : Nat) (h : m.wf = true) :
    (m.write i v).read j = if i = j then v else m.read j :=
  Memory.read_write_from m 0 i v j h

/-- Canonical buffers that read the same are the same data. -/
theorem Memory.eq_of_read_from : ∀ (m m' : Memory) (lo : Nat), m.wfFrom lo = true → m'.wfFrom lo = true →
    (∀ i, m.read i = m'.read i) → m = m'
  | [], [], _, _, _, _ => rfl
  | [], (k, v) :: rest, lo, _, h, hr => by
    simp only [Memory.wfFrom, Bool.and_eq_true, decide_eq_true_eq] at h
    have := hr k
    rw [Memory.read_cons, if_pos rfl] at this
    exact absurd this.symm h.1.2
  | (k, v) :: rest, [], lo, h, _, hr => by
    simp only [Memory.wfFrom, Bool.and_eq_true, decide_eq_true_eq] at h
    have := hr k
    rw [Memory.read_cons, if_pos rfl] at this
    exact absurd this h.1.2
  | (k, v) :: rest, (k', v') :: rest', lo, h, h', hr => by
    have h0 := h; have h0' := h'
    simp only [Memory.wfFrom, Bool.and_eq_true, decide_eq_true_eq] at h h'
    have hk : k = k' := by
      rcases Nat.lt_trichotomy k k' with hlt | heq | hgt
      · have := hr k
        rw [Memory.read_cons, if_pos rfl, Memory.read_cons, if_neg (by omega), Memory.read_below rest' (k' + 1) k h'.2 (by omega)] at this
        exact absurd this h.1.2
      · exact heq
      · have := hr k'
        rw [Memory.read_cons, if_neg (by omega), Memory.read_below rest (k + 1) k' h.2 (by omega), Memory.read_cons, if_pos rfl] at this
        exact absurd this.symm h'.1.2
    subst hk
    have hv : v = v' := by have := hr k; rwa [Memory.read_cons, if_pos rfl, Memory.read_cons, if_pos rfl] at this
    subst hv
    rw [Memory.eq_of_read_from rest rest' (k + 1) h.2 h'.2]
    intro i
    by_cases hi : k = i
    · subst hi; rw [Memory.read_below rest (k + 1) k h.2 (by omega), Memory.read_below rest' (k + 1) k h'.2 (by omega)]
    · have := hr i; rwa [Memory.read_cons, if_neg hi, Memory.read_cons, if_neg hi] at this

theorem Memory.eq_of_read (m m' : Memory) (h : m.wf = true) (h' : m'.wf = true) (hr : ∀ i, m.read i = m'.read i) : m = m' :=
  Memory.eq_of_read_from m m' 0 h h' hr

theorem reset_memory_wf : State.reset.buf.wf = true := rfl

/-! ### The output frame -/

theorem frameBytes_length (m : Memory) (n : Nat) : (frameBytes m n).length = Config.bufCap := by simp [frameBytes]

theorem frameBytes_get (m : Memory) (n i : Nat) (hi : i < Config.bufCap) :
    (frameBytes m n)[i]? = some (if i < n then m.read i else 0) := by
  simp [frameBytes, hi]

theorem frameBytes_congr (m m' : Memory) (n : Nat) (h : ∀ i, i < n → m.read i = m'.read i) :
    frameBytes m n = frameBytes m' n := by
  unfold frameBytes
  apply List.map_congr_left
  intro i _
  split
  · next hi => exact h i hi
  · rfl

theorem frameSum_congr (m m' : Memory) : ∀ n, (∀ i, i < n → m.read i = m'.read i) → frameSum m n = frameSum m' n
  | 0, _ => rfl
  | n + 1, h => by
    rw [frameSum, frameSum, frameSum_congr m m' n (fun i hi => h i (by omega)), h n (by omega)]

end Sys2Proof.Machine
end

