-- ==== Sys2Proof/Laws/Guards.lean ====
section
/-! SUPPORT. The guards, said once: when they let an instruction run and everything they can answer; and with them what
every instruction answers in a running block. -/

namespace Sys2Proof.Machine

theorem whenBuilt_ok {s : State} (k : State → Host.Outcome State Fault Refusal) (h : tableWf s.table = true) :
    whenBuilt s k = k s := by simp [whenBuilt, h]

theorem whenRunning_ok {s : State} (k : State → Host.Outcome State Fault Refusal) (h : s.Running) :
    whenRunning s k = k s := by
  obtain ⟨h1, h2, h3⟩ := h
  simp [whenRunning, whenBuilt, h1, h2, h3]

theorem whenOffset_ok {p : Offset} {s : State} (k : State → Host.Outcome State Fault Refusal) (h : offsetWf p = true) :
    whenOffset p s k = k s := by simp [whenOffset, h]

/-- All a guarded instruction can answer: a next state only of a running block. -/
theorem whenRunning_next {s t : State} {k : State → Host.Outcome State Fault Refusal} :
    whenRunning s k = .next t ↔ s.Running ∧ k s = .next t := by
  unfold whenRunning whenBuilt State.Running
  by_cases h1 : tableWf s.table = true <;> by_cases h2 : s.booted = false <;> by_cases h3 : s.phase = .reserved <;>
    simp_all

theorem whenBuilt_next {s t : State} {k : State → Host.Outcome State Fault Refusal} :
    whenBuilt s k = .next t ↔ tableWf s.table = true ∧ k s = .next t := by
  unfold whenBuilt
  by_cases h1 : tableWf s.table = true <;> simp_all

theorem whenOffset_next {p : Offset} {s t : State} {k : State → Host.Outcome State Fault Refusal} :
    whenOffset p s k = .next t ↔ offsetWf p = true ∧ k s = .next t := by
  unfold whenOffset
  by_cases h1 : offsetWf p = true <;> simp_all

/-! ### What each instruction answers -/

theorem execNop_next {s t : State} : execNop s = .next t ↔ s.Running ∧ t = clearOut s := by
  simp only [execNop, whenRunning_next, Host.Outcome.next.injEq, @eq_comm _ t]

theorem execByte_next {b : Byte} {s t : State} : execByte b s = .next t ↔ s.Running ∧ t = byteStep b s := by
  simp only [execByte, whenRunning_next, Host.Outcome.next.injEq, @eq_comm _ t]

theorem execTimeout_next {s t : State} : execTimeout s = .next t ↔ s.Running ∧ t = timeoutStep s := by
  simp only [execTimeout, whenRunning_next, Host.Outcome.next.injEq, @eq_comm _ t]

theorem execReset_next {en : Bool} {addr : Byte} {s t : State} :
    execReset en addr s = .next t ↔ tableWf s.table = true ∧ t = resetStep en addr s := by
  simp only [execReset, whenBuilt_next, Host.Outcome.next.injEq, @eq_comm _ t]

theorem execField_next {fs : FSel} {p : Offset} {s t : State} :
    execField fs p s = .next t ↔ s.Running ∧ offsetWf p = true ∧ t = runField fs p s := by
  simp only [execField, whenRunning_next, whenOffset_next, Host.Outcome.next.injEq, @eq_comm _ t]

theorem execFNone_next {s t : State} : execFNone s = .next t ↔ s.Running ∧ t = runField .fNone 0 s := by
  simp only [execFNone, whenRunning_next, Host.Outcome.next.injEq, @eq_comm _ t]

theorem execFOk_next {s t : State} : execFOk s = .next t ↔ s.Running ∧ t = runField .fOk 0 s := by
  simp only [execFOk, whenRunning_next, Host.Outcome.next.injEq, @eq_comm _ t]

/-! ### Where each instruction completes -/

theorem exec_nop_running {s : State} (h : s.Running) : exec .nop s = .next (clearOut s) := execNop_next.2 ⟨h, rfl⟩

theorem exec_byte_running {s : State} (b : Byte) (h : s.Running) : exec (.byte b) s = .next (byteStep b s) :=
  execByte_next.2 ⟨h, rfl⟩

theorem exec_timeout_running {s : State} (h : s.Running) : exec .timeout s = .next (timeoutStep s) :=
  execTimeout_next.2 ⟨h, rfl⟩

theorem exec_reset_built {s : State} (en : Bool) (addr : Byte) (h : tableWf s.table = true) :
    exec (.reset en addr) s = .next (resetStep en addr s) := execReset_next.2 ⟨h, rfl⟩

/-- A decoder whose width is 0 takes no offset: any gives the same step (R153, R154). -/
theorem runField_no_width {fs : FSel} (h : fieldWidth fs = 0) (p p' : Offset) (s : State) :
    runField fs p s = runField fs p' s := by
  cases fs <;> simp_all [fieldWidth] <;> rfl

theorem exec_field_running {s : State} (fs : FSel) (p : Offset) (h : s.Running) (hp : offsetWf p = true) :
    exec (fs.instr p) s = .next (runField fs p s) := by
  cases fs with
  | fNone => rw [runField_no_width rfl p 0]; exact execFNone_next.2 ⟨h, rfl⟩
  | fOk => rw [runField_no_width rfl p 0]; exact execFOk_next.2 ⟨h, rfl⟩
  | _ => exact execField_next.2 ⟨h, hp, rfl⟩

/-- Everything an instruction can do when it answers a next state. -/
theorem exec_next {i : Instr} {s t : State} (h : exec i s = .next t) :
    tableWf s.table = true ∧
    ((∃ en addr, i = .reset en addr ∧ t = resetStep en addr s) ∨
      (s.Running ∧
        ((i = .nop ∧ t = clearOut s) ∨ (∃ b, i = .byte b ∧ t = byteStep b s) ∨ (i = .timeout ∧ t = timeoutStep s) ∨
          (∃ fs p, offsetWf p = true ∧ i = fs.instr p ∧ t = runField fs p s)))) := by
  cases i with
  | nop => obtain ⟨hr, rfl⟩ := execNop_next.1 h; exact ⟨hr.1, .inr ⟨hr, .inl ⟨rfl, rfl⟩⟩⟩
  | byte b => obtain ⟨hr, rfl⟩ := execByte_next.1 h; exact ⟨hr.1, .inr ⟨hr, .inr (.inl ⟨b, rfl, rfl⟩)⟩⟩
  | timeout => obtain ⟨hr, rfl⟩ := execTimeout_next.1 h; exact ⟨hr.1, .inr ⟨hr, .inr (.inr (.inl ⟨rfl, rfl⟩))⟩⟩
  | reset en addr => obtain ⟨hr, rfl⟩ := execReset_next.1 h; exact ⟨hr, .inl ⟨en, addr, rfl, rfl⟩⟩
  | fNone => obtain ⟨hr, rfl⟩ := execFNone_next.1 h; exact ⟨hr.1, .inr ⟨hr, .inr (.inr (.inr ⟨.fNone, 0, rfl, rfl, rfl⟩))⟩⟩
  | fOk => obtain ⟨hr, rfl⟩ := execFOk_next.1 h; exact ⟨hr.1, .inr ⟨hr, .inr (.inr (.inr ⟨.fOk, 0, rfl, rfl, rfl⟩))⟩⟩
  | fPower p => obtain ⟨hr, hp, rfl⟩ := execField_next.1 h; exact ⟨hr.1, .inr ⟨hr, .inr (.inr (.inr ⟨.fPower, p, hp, rfl, rfl⟩))⟩⟩
  | fModeSet p => obtain ⟨hr, hp, rfl⟩ := execField_next.1 h; exact ⟨hr.1, .inr ⟨hr, .inr (.inr (.inr ⟨.fModeSet, p, hp, rfl, rfl⟩))⟩⟩
  | fModeGet p => obtain ⟨hr, hp, rfl⟩ := execField_next.1 h; exact ⟨hr.1, .inr ⟨hr, .inr (.inr (.inr ⟨.fModeGet, p, hp, rfl, rfl⟩))⟩⟩
  | fFan p => obtain ⟨hr, hp, rfl⟩ := execField_next.1 h; exact ⟨hr.1, .inr ⟨hr, .inr (.inr (.inr ⟨.fFan, p, hp, rfl, rfl⟩))⟩⟩
  | fStatus p => obtain ⟨hr, hp, rfl⟩ := execField_next.1 h; exact ⟨hr.1, .inr ⟨hr, .inr (.inr (.inr ⟨.fStatus, p, hp, rfl, rfl⟩))⟩⟩
  | fTemp p => obtain ⟨hr, hp, rfl⟩ := execField_next.1 h; exact ⟨hr.1, .inr ⟨hr, .inr (.inr (.inr ⟨.fTemp, p, hp, rfl, rfl⟩))⟩⟩

/-! ### One step -/

theorem step_probe {s : State} {w : SelWord} (h : s.probe = some w) :
    step s = runWord (.sel w) (clearOut { s with probe := none }) := by simp [step, fetch, h]

theorem step_inputs {s : State} {w : OpWord} {ws : List OpWord} (hp : s.probe = none) (h : s.inputs = w :: ws) :
    step s = exec (decodeOp w) (clearOut { s with inputs := ws }) := by
  simp [step, fetch, hp, h, runWord, decode]

theorem step_idle {s : State} (hp : s.probe = none) (h : s.inputs = []) : step s = .next s := by
  simp [step, fetch, hp, h]

/-- Everything a step can do when it answers a next state. -/
theorem step_next {s t : State} (h : step s = .next t) :
    (s.probe = none ∧ s.inputs = [] ∧ t = s) ∨
    (∃ w s' i, fetch s = some (w, s') ∧ decode w = .ok i ∧ exec i s' = .next t) := by
  unfold step at h
  split at h
  · next hf =>
    left
    unfold fetch at hf
    split at hf
    · simp at hf
    · next hp =>
      split at hf
      · next hi => exact ⟨hp, hi, by simpa using h.symm⟩
      · simp at hf
  · next w s' hf =>
    right
    unfold runWord at h
    split at h
    · next i hd => exact ⟨w, s', i, hf, hd, h⟩
    · simp [refuseWord] at h

/-! ### Runs -/

/-- `run` is the host's `core.run`. -/
theorem run_eq_core_run : ∀ (k : Nat) (s : State), run k s = core.run k s
  | 0, _ => rfl
  | k + 1, s => by
    cases h : step s with
    | next t =>
      have h' : core.step s = .next t := h
      simp only [run, Host.Core.run, h, h']
      exact run_eq_core_run k t
    | fault r =>
      have h' : core.step s = .fault r := h
      simp only [run, Host.Core.run, h, h']
      rfl
    | refused r =>
      have h' : core.step s = .refused r := h
      simp only [run, Host.Core.run, h, h']
      rfl

theorem run_one (s : State) : run 1 s = step s := by
  simp only [run]
  cases step s <;> rfl

/-- A run is a run of its first part and then of its second. -/
theorem run_add (m n : Nat) : ∀ {s t : State}, run m s = .next t → run (m + n) s = run n t := by
  induction m with
  | zero => intro s t h; cases h; rw [Nat.zero_add]
  | succ m ih =>
    intro s t h
    rw [Nat.succ_add]
    simp only [run] at h ⊢
    cases hs : step s with
    | next u => rw [hs] at h; exact ih h
    | fault r => rw [hs] at h; cases h
    | refused r => rw [hs] at h; cases h

end Sys2Proof.Machine
end

