-- ==== Sys2Proof/Laws/Byte.lean ====
section
/-! SUPPORT. What a BYTE does, one lemma per path of R101: the first byte of a frame, a byte stored, the pre-check passed
or failed, the frame completed, the overflow, a byte skipped, the end of a skipped frame. `byteStep_cases` says that these
are all. -/

namespace Sys2Proof.Machine

/-- The counts at which the pre-check runs and the frame ends, as numbers: they never wrap in 9 bits (R78). -/
theorem precheckCount_toNat (len : Byte) : (precheckCount len).toNat = 6 + len.toNat := by
  have := len.isLt
  simp [precheckCount]; omega

theorem frameCount_toNat (len : Byte) : (frameCount len).toNat = 7 + len.toNat := by
  have := len.isLt
  simp [frameCount]; omega

theorem precheckCount_ne_frameCount (len : Byte) : precheckCount len ≠ frameCount len := by
  intro h
  have := congrArg BitVec.toNat h
  rw [precheckCount_toNat, frameCount_toNat] at this
  omega

theorem eq_precheckCount {c : Count} {len : Byte} : c = precheckCount len ↔ c.toNat = 6 + len.toNat := by
  rw [← BitVec.toNat_inj, precheckCount_toNat]

theorem eq_frameCount {c : Count} {len : Byte} : c = frameCount len ↔ c.toNat = 7 + len.toNat := by
  rw [← BitVec.toNat_inj, frameCount_toNat]

/-! ### Counts as numbers -/

theorem count_succ {c : Count} (h : c.toNat < Config.bufCap) : (c + 1).toNat = c.toNat + 1 := by
  simp only [Config.bufCap] at h; simp; omega

theorem five_le_count {c : Count} : 5 ≤ c ↔ 5 ≤ c.toNat := by rw [BitVec.le_def]; rfl

theorem count_eq_four {c : Count} : c = 4 ↔ c.toNat = 4 := by rw [← BitVec.toNat_inj]; rfl

/-- The last byte of a frame, as a number: the 9-bit counter never wraps there (R78, R113). -/
theorem next_eq_frameCount {c : Count} {len : Byte} : c + 1 = frameCount len ↔ c.toNat + 1 = 7 + len.toNat := by
  have := c.isLt
  have := len.isLt
  rw [eq_frameCount]; simp; omega

theorem next_eq_precheckCount {c : Count} {len : Byte} : c + 1 = precheckCount len ↔ c.toNat + 1 = 6 + len.toNat := by
  have := c.isLt
  have := len.isLt
  rw [eq_precheckCount]; simp; omega

/-- The value `LEN` has after a byte of frame index `n` is stored in ACC (R104). -/
def latched (n : Count) (b len : Byte) : Byte := if n = 4 then b else len

theorem latchLength_eq (n : Count) (b : Byte) (s : State) : latchLength n b s = { s with len := latched n b s.len } := by
  unfold latchLength latched
  split <;> rfl

theorem storeIndex_some {n : Count} (h : n.toNat < Config.bufCap) : storeIndex n = some n.toNat := by simp [storeIndex, h]

theorem storeIndex_none {n : Count} (h : ¬ n.toNat < Config.bufCap) : storeIndex n = none := by simp [storeIndex, h]

/-- ACC, with room: the byte is counted, summed, stored and the length latched; what follows is decided by the count. -/
theorem accumulate_stored {s : State} {n : Count} {b : Byte} (hp : s.phase = .acc) (hn : n.toNat < Config.bufCap) :
    accumulate n b s =
      (if 5 ≤ n + 1 ∧ n + 1 = precheckCount (latched n b s.len) then
        precheck (n + 1) { s with buf := s.buf.write n.toNat b, len := latched n b s.len }
      else { s with buf := s.buf.write n.toNat b, len := latched n b s.len }) := by
  simp [accumulate, hp, storeOrOverflow, storeIndex_some hn, latchLength_eq]

theorem accumulate_overflow {s : State} {n : Count} {b : Byte} (hp : s.phase = .acc) (hn : ¬ n.toNat < Config.bufCap) :
    accumulate n b s = raise .overflow (condemnOverflow s) := by
  simp [accumulate, hp, storeOrOverflow, storeIndex_none hn]

theorem accumulate_skip {s : State} {n : Count} {b : Byte} (hp : s.phase ≠ .acc) : accumulate n b s = s := by
  simp [accumulate, hp]

theorem conclude_skip_mid {s : State} {n1 : Count} (hp : s.phase = .skip) (h : n1 ≠ frameCount s.len) :
    conclude n1 s = continuing s := by simp [conclude, hp, h]

theorem conclude_skip_end {s : State} {n1 : Count} (hp : s.phase = .skip) (h : n1 = frameCount s.len) :
    conclude n1 s = skipEnd s := by simp [conclude, hp, h]

theorem conclude_acc_mid {s : State} {n1 : Count} (hp : s.phase = .acc) (h : ¬ (5 ≤ n1 ∧ n1 = frameCount s.len)) :
    conclude n1 s = continuing s := by simp only [conclude, hp, true_and, if_neg h]; simp

theorem conclude_acc_end {s : State} {n1 : Count} (hp : s.phase = .acc) (h : 5 ≤ n1 ∧ n1 = frameCount s.len) :
    conclude n1 s = complete n1 s := by
  unfold conclude
  rw [if_pos ⟨hp, h⟩]

/-- The pre-check on a zero sum only exposes it (R132). -/
theorem precheck_ok {n1 : Count} {s : State} (h : s.csum = 0) : precheck n1 s = exposeCheck s := by
  simp only [precheck, validate, h, if_true]

/-- The pre-check on a nonzero sum reports and condemns the frame (R132). -/
theorem precheck_mismatch {n1 : Count} {s : State} (h : s.csum ≠ 0) :
    precheck n1 s = condemnMismatch (outputPass (outputFrame n1 (raise .badCrc (exposeCheck s)))) := by
  simp only [precheck, validate, if_neg h]

/-! ### COMPLETE's record -/

@[simp] theorem matchFrame_out_ev (n : Nat) (s : State) : (matchFrame n s).out.ev = s.out.ev := by
  unfold matchFrame; split <;> rfl
@[simp] theorem matchFrame_out_fend (n : Nat) (s : State) : (matchFrame n s).out.fend = s.out.fend := by
  unfold matchFrame; split <;> rfl
@[simp] theorem matchFrame_out_sep (n : Nat) (s : State) : (matchFrame n s).out.sep = s.out.sep := by
  unfold matchFrame; split <;> rfl
@[simp] theorem matchFrame_out_chk (n : Nat) (s : State) : (matchFrame n s).out.chk = s.out.chk := by
  unfold matchFrame; split <;> rfl
@[simp] theorem matchFrame_out_acc (n : Nat) (s : State) : (matchFrame n s).out.acc = s.out.acc := by
  unfold matchFrame; split <;> rfl
@[simp] theorem matchFrame_out_flen (n : Nat) (s : State) : (matchFrame n s).out.flen = s.out.flen := by
  unfold matchFrame; split <;> rfl
@[simp] theorem matchFrame_out_frame (n : Nat) (s : State) : (matchFrame n s).out.frame = s.out.frame := by
  unfold matchFrame; split <;> rfl
@[simp] theorem matchFrame_out_pass (n : Nat) (s : State) : (matchFrame n s).out.pass = s.out.pass := by
  unfold matchFrame; split <;> rfl

/-- COMPLETE clears the frame state and writes the record; it changes nothing else (R106, R110). -/
theorem complete_eq (n1 : Count) (s : State) :
    complete n1 s =
      { s with
          phase := .idle, cnt := 0, csum := 0, len := 0, ovf := false, skipc := false
          out := { (matchFrame n1.toNat (outputPass (outputFrame n1 (attachSum (raise .frameComplete s))))).out with
                     fend := true } } := by
  simp only [complete, frameEndClear, markFrameEnd, completeReport]
  simp

/-- A byte in a frame that is being accumulated: the state before its sub-steps (R101's first lines). -/
def byteStart (b : Byte) (s : State) : State := countByte b (frameStart (clearOut s))

theorem byteStep_eq (b : Byte) (s : State) :
    byteStep b s =
      conclude ((frameStart (clearOut s)).cnt + 1) (accumulate (frameStart (clearOut s)).cnt b (byteStart b s)) := rfl

theorem frameStart_idle {s : State} (h : s.phase = .idle) :
    frameStart s = { s with cnt := 0, csum := 0, len := 0, ovf := false, skipc := false, phase := .acc } := by
  simp [frameStart, h]

theorem frameStart_busy {s : State} (h : s.phase ≠ .idle) : frameStart s = s := by simp [frameStart, h]

/-! ### The paths -/

/-- The first byte of a frame (R102, R103, R109). -/
theorem byteStep_idle {s : State} (b : Byte) (h : s.phase = .idle) :
    byteStep b s =
      { s with phase := .acc, cnt := 1, csum := b, len := 0, ovf := false, skipc := false
               buf := s.buf.write 0 b, out := { OutRecord.zero with ev := .continuing } } := by
  have h0 : (clearOut s).phase = .idle := h
  rw [byteStep_eq, byteStart, frameStart_idle h0]
  have h5 : ¬ (5 : Count) ≤ 0 + 1 := by decide
  rw [accumulate_stored (by rfl) (by simp [Config.bufCap]), if_neg (fun hx => h5 hx.1),
    conclude_acc_mid (by rfl) (fun hx => h5 hx.1)]
  simp [continuing, OutRecord.zero, raise, latched, countByte, sumByte, clearOut]

/-- A byte stored in the middle of a frame (R103, R104, R109). -/
theorem byteStep_acc_mid {s : State} (b : Byte) (h : s.phase = .acc) (hn : s.cnt.toNat < Config.bufCap)
    (h1 : ¬ (5 ≤ s.cnt + 1 ∧ s.cnt + 1 = precheckCount (latched s.cnt b s.len)))
    (h2 : ¬ (5 ≤ s.cnt + 1 ∧ s.cnt + 1 = frameCount (latched s.cnt b s.len))) :
    byteStep b s =
      { s with cnt := s.cnt + 1, csum := s.csum + b, len := latched s.cnt b s.len
               buf := s.buf.write s.cnt.toNat b, out := { OutRecord.zero with ev := .continuing } } := by
  have h0 : (clearOut s).phase ≠ .idle := by simp [h]
  rw [byteStep_eq, byteStart, frameStart_busy h0]
  rw [accumulate_stored (by simpa using h) (by simpa using hn), if_neg (by simpa using h1),
    conclude_acc_mid (by simpa using h) (by simpa using h2)]
  simp [continuing, OutRecord.zero, raise, countByte, sumByte, clearOut]

/-- The pre-check passes: the sum is exposed and nothing else happens (R132, R109). -/
theorem byteStep_acc_pass {s : State} (b : Byte) (h : s.phase = .acc) (hn : s.cnt.toNat < Config.bufCap)
    (h1 : 5 ≤ s.cnt + 1 ∧ s.cnt + 1 = precheckCount (latched s.cnt b s.len)) (hc : s.csum + b = 0) :
    byteStep b s =
      { s with cnt := s.cnt + 1, csum := 0, len := latched s.cnt b s.len
               buf := s.buf.write s.cnt.toNat b
               out := { OutRecord.zero with ev := .continuing, chk := true, acc := 0 } } := by
  have h0 : (clearOut s).phase ≠ .idle := by simp [h]
  have hne := precheckCount_ne_frameCount (latched s.cnt b s.len)
  rw [byteStep_eq, byteStart, frameStart_busy h0]
  rw [accumulate_stored (by simpa using h) (by simpa using hn), if_pos (by simpa using h1)]
  rw [precheck_ok (by exact hc)]
  rw [conclude_acc_mid (by simpa using h) (by simp only [exposeCheck_len]; intro hx; exact hne (h1.2 ▸ hx.2))]
  simp [continuing, OutRecord.zero, raise, countByte, sumByte, clearOut, exposeCheck, hc]

/-- The pre-check fails: the frame is reported through its checksum byte and condemned (R132). -/
theorem byteStep_acc_fail {s : State} (b : Byte) (h : s.phase = .acc) (hn : s.cnt.toNat < Config.bufCap)
    (h1 : 5 ≤ s.cnt + 1 ∧ s.cnt + 1 = precheckCount (latched s.cnt b s.len)) (hc : s.csum + b ≠ 0) :
    byteStep b s =
      { s with phase := .skip, cnt := s.cnt + 1, csum := 0, len := latched s.cnt b s.len, skipc := true
               buf := s.buf.write s.cnt.toNat b
               out := { OutRecord.zero with
                          ev := .badCrc, chk := true, acc := s.csum + b
                          flen := (s.cnt + 1).setWidth 5
                          frame := frameBytes (s.buf.write s.cnt.toNat b) (s.cnt + 1).toNat
                          pass := filterPass { s with buf := s.buf.write s.cnt.toNat b } } } := by
  have h0 : (clearOut s).phase ≠ .idle := by simp [h]
  have hne := precheckCount_ne_frameCount (latched s.cnt b s.len)
  rw [byteStep_eq, byteStart, frameStart_busy h0]
  rw [accumulate_stored (by simpa using h) (by simpa using hn), if_pos (by simpa using h1)]
  rw [precheck_mismatch (by exact hc)]
  rw [conclude_skip_mid (by rfl) (by intro hx; exact hne (h1.2 ▸ hx))]
  rfl

/-- The state in which COMPLETE finds the frame: every byte stored and summed (R106). -/
def completed (b : Byte) (s : State) : State :=
  { s with cnt := s.cnt + 1, csum := s.csum + b, buf := s.buf.write s.cnt.toNat b, out := OutRecord.zero }

/-- The frame completes (R106). -/
theorem byteStep_acc_complete {s : State} (b : Byte) (h : s.phase = .acc) (hn : s.cnt.toNat < Config.bufCap)
    (h1 : 5 ≤ s.cnt + 1 ∧ s.cnt + 1 = frameCount s.len) (h4 : s.cnt ≠ 4) :
    byteStep b s = complete (s.cnt + 1) (completed b s) := by
  have h0 : (clearOut s).phase ≠ .idle := by simp [h]
  have hne := precheckCount_ne_frameCount s.len
  have hl : latched s.cnt b s.len = s.len := if_neg h4
  rw [byteStep_eq, byteStart, frameStart_busy h0]
  rw [accumulate_stored (by simpa using h) (by simpa using hn)]
  simp only [countByte_len, clearOut_len, clearOut_cnt, hl]
  rw [if_neg (by intro hx; exact hne (h1.2 ▸ hx.2.symm))]
  rw [conclude_acc_end (by simpa using h) (by simpa using h1)]
  rfl

/-- The byte that finds the buffer full (R103): the overflow is reported once, and kept if this byte is the frame's last
(R108, R114). -/
theorem byteStep_overflow {s : State} (b : Byte) (h : s.phase = .acc) (hn : ¬ s.cnt.toNat < Config.bufCap) :
    byteStep b s =
      if s.cnt + 1 = frameCount s.len then
        { s with phase := .idle, cnt := 0, csum := 0, len := 0, ovf := false, skipc := false
                 out := { OutRecord.zero with ev := .overflow, fend := true } }
      else
        { s with phase := .skip, cnt := s.cnt + 1, csum := s.csum + b, ovf := true, skipc := false
                 out := { OutRecord.zero with ev := .overflow } } := by
  have h0 : (clearOut s).phase ≠ .idle := by simp [h]
  rw [byteStep_eq, byteStart, frameStart_busy h0]
  rw [accumulate_overflow (by simpa using h) (by simpa using hn)]
  split
  · next he => rw [conclude_skip_end (by rfl) (by simpa using he)]; rfl
  · next he => rw [conclude_skip_mid (by rfl) (by simpa using he)]; rfl

/-- A byte of a condemned frame (R107, R109). -/
theorem byteStep_skip_mid {s : State} (b : Byte) (h : s.phase = .skip) (h1 : s.cnt + 1 ≠ frameCount s.len) :
    byteStep b s =
      { s with cnt := s.cnt + 1, csum := s.csum + b, out := { OutRecord.zero with ev := .continuing } } := by
  have h0 : (clearOut s).phase ≠ .idle := by simp [h]
  rw [byteStep_eq, byteStart, frameStart_busy h0, accumulate_skip (by simp [h]),
    conclude_skip_mid (by simpa using h) (by simpa using h1)]
  rfl

/-- The last byte of a condemned frame (R108). -/
theorem byteStep_skip_end {s : State} (b : Byte) (h : s.phase = .skip) (h1 : s.cnt + 1 = frameCount s.len) :
    byteStep b s =
      { s with phase := .idle, cnt := 0, csum := 0, len := 0, ovf := false, skipc := false
               out := { OutRecord.zero with ev := .skipEnd, fend := true } } := by
  have h0 : (clearOut s).phase ≠ .idle := by simp [h]
  rw [byteStep_eq, byteStart, frameStart_busy h0, accumulate_skip (by simp [h]),
    conclude_skip_end (by simpa using h) (by simpa using h1)]
  rfl

theorem not_four_of_complete {c : Count} {b len : Byte} (h : c + 1 = frameCount (latched c b len)) : c ≠ 4 := by
  intro h4
  subst h4
  have := eq_frameCount.1 h
  simp at this
  omega

/-- The paths of a BYTE are all: which one is taken is decided by the phase, the room and the count. -/
theorem byteStep_cases (b : Byte) (s : State) (hr : s.phase ≠ .reserved) :
    (s.phase = .idle) ∨
    (s.phase = .acc ∧ s.cnt.toNat < Config.bufCap ∧
      ((5 ≤ s.cnt + 1 ∧ s.cnt + 1 = precheckCount (latched s.cnt b s.len)) ∨
       (5 ≤ s.cnt + 1 ∧ s.cnt + 1 = frameCount s.len ∧ s.cnt ≠ 4) ∨
       (¬ (5 ≤ s.cnt + 1 ∧ s.cnt + 1 = precheckCount (latched s.cnt b s.len)) ∧
        ¬ (5 ≤ s.cnt + 1 ∧ s.cnt + 1 = frameCount (latched s.cnt b s.len))))) ∨
    (s.phase = .acc ∧ ¬ s.cnt.toNat < Config.bufCap) ∨
    (s.phase = .skip) := by
  cases hp : s.phase with
  | idle => simp
  | reserved => exact absurd hp hr
  | skip => simp
  | acc =>
    by_cases hn : s.cnt.toNat < Config.bufCap
    · right; left
      refine ⟨rfl, hn, ?_⟩
      by_cases h1 : 5 ≤ s.cnt + 1 ∧ s.cnt + 1 = precheckCount (latched s.cnt b s.len)
      · exact .inl h1
      · by_cases h2 : 5 ≤ s.cnt + 1 ∧ s.cnt + 1 = frameCount (latched s.cnt b s.len)
        · have h4 := not_four_of_complete h2.2
          right; left
          exact ⟨h2.1, by have h := h2.2; rwa [latched, if_neg h4] at h, h4⟩
        · exact .inr (.inr ⟨h1, h2⟩)
    · exact .inr (.inr (.inl ⟨rfl, hn⟩))

end Sys2Proof.Machine
end

