-- ==== Sys2Proof/Laws/PerInstr.lean ====
section
/-! SUPPORT. Per-instruction statements about the syntax. Family `RowWord`: the encoded word of an instruction has the
fixed bits of its row of the opcode table (30_encoding.md R70, R85). -/

namespace Sys2Proof.Laws.RowWord

/-- The word has the bits `match_` where the row's mask is 1. -/
def hasFixed (mask match_ : Nat) : PortWord → Prop
  | .op w => w.opw.toNat &&& mask = match_
  | .sel w => w.fsel.toNat &&& mask = match_

/-- Whether a row is of format OPW. -/
def onOpPort : PortWord → Bool
  | .op _ => true
  | .sel _ => false

/-- The row's format, mask and match (spec/opcode_table.json). -/
def row : Instr → Bool × Nat × Nat
  | .nop => (true, 0x300, 0x000)
  | .byte _ => (true, 0x300, 0x100)
  | .timeout => (true, 0x300, 0x200)
  | .reset _ _ => (true, 0x300, 0x300)
  | .fNone => (false, 0x7, 0x0)
  | .fOk => (false, 0x7, 0x1)
  | .fPower _ => (false, 0x7, 0x2)
  | .fModeSet _ => (false, 0x7, 0x3)
  | .fModeGet _ => (false, 0x7, 0x4)
  | .fFan _ => (false, 0x7, 0x5)
  | .fStatus _ => (false, 0x7, 0x6)
  | .fTemp _ => (false, 0x7, 0x7)

/-- The encoded word is of its row. -/
def Statement (i : Instr) : Prop :=
  onOpPort (encode i) = (row i).1 ∧ hasFixed (row i).2.1 (row i).2.2 (encode i)

theorem nop : Statement .nop := ⟨rfl, rfl⟩

theorem byte (b : Byte) : Statement (.byte b) := by
  have h : ∀ b : BitVec 8, ((1 : BitVec 2) ++ b).toNat &&& 0x300 = 0x100 := by decide
  exact ⟨rfl, h b⟩

theorem timeout : Statement .timeout := ⟨rfl, rfl⟩

theorem reset (en : Bool) (addr : Byte) : Statement (.reset en addr) :=
  ⟨rfl, (by decide : ((3 : BitVec 2) ++ (0 : Byte)).toNat &&& 0x300 = 0x300)⟩

theorem fNone : Statement .fNone := ⟨rfl, rfl⟩

theorem fOk : Statement .fOk := ⟨rfl, rfl⟩

theorem fPower (p : Offset) : Statement (.fPower p) := ⟨rfl, (by decide : FSel.fPower.code.toNat &&& 0x7 = 2)⟩

theorem fModeSet (p : Offset) : Statement (.fModeSet p) := ⟨rfl, (by decide : FSel.fModeSet.code.toNat &&& 0x7 = 3)⟩

theorem fModeGet (p : Offset) : Statement (.fModeGet p) := ⟨rfl, (by decide : FSel.fModeGet.code.toNat &&& 0x7 = 4)⟩

theorem fFan (p : Offset) : Statement (.fFan p) := ⟨rfl, (by decide : FSel.fFan.code.toNat &&& 0x7 = 5)⟩

theorem fStatus (p : Offset) : Statement (.fStatus p) := ⟨rfl, (by decide : FSel.fStatus.code.toNat &&& 0x7 = 6)⟩

theorem fTemp (p : Offset) : Statement (.fTemp p) := ⟨rfl, (by decide : FSel.fTemp.code.toNat &&& 0x7 = 7)⟩

end Sys2Proof.Laws.RowWord
end

