-- ==== Sys2Proof/Laws/Table.lean ====
section
/-! SUPPORT. Unpacking a table ROM, said once: what an accepted row's fields are, and that a built table's entry `j` is row
`j` unpacked (30_encoding.md R81, R83). -/

namespace Sys2Proof

/-- Everything an accepted row gives: its length, offset and handler kind at their bits, and the pattern's bytes. -/
theorem unpackEntry_ok {r : RomRow} {e : Entry} (h : unpackEntry r = .ok e) :
    (r.extractLsb' 0 5).toNat ≤ Config.kMax ∧ offsetWf (r.extractLsb' 10 5) = true ∧
    HandlerKind.ofCode (r.extractLsb' 5 5) = some e.hk ∧ e.p = r.extractLsb' 10 5 ∧
    e.pat = (List.range (r.extractLsb' 0 5).toNat).map (fun i => (romMask r i, romExp r i)) := by
  unfold unpackEntry at h
  dsimp only at h
  split at h
  · cases h
  · next h1 =>
    split at h
    · cases h
    · next h2 =>
      split at h
      · cases h
      · next hk hh =>
        cases h
        exact ⟨by omega, by simpa using h2, hh, rfl, rfl⟩

/-- All that unpacking a row and then the rest can answer. -/
theorem unpackRows_cons {r : RomRow} {rs : List RomRow} {t : List Entry} :
    unpackRows (r :: rs) = .ok t ↔ ∃ e es, unpackEntry r = .ok e ∧ unpackRows rs = .ok es ∧ t = e :: es := by
  constructor
  · intro h
    unfold unpackRows at h
    split at h
    · cases h
    · next e he =>
      split at h
      · cases h
      · next es hes => cases h; exact ⟨e, es, he, hes, rfl⟩
  · rintro ⟨e, es, he, hes, rfl⟩
    simp only [unpackRows, he, hes]

/-- A table is built only from at most 32 rows, each of them accepted. -/
theorem buildTable_ok {rows : List RomRow} {t : List Entry} :
    buildTable rows = .ok t ↔ rows.length ≤ Config.maxEntries ∧ unpackRows rows = .ok t := by
  unfold buildTable
  split
  · next h => exact ⟨fun hx => (by cases hx), fun hx => absurd h (by omega)⟩
  · next h => exact ⟨fun hx => ⟨by omega, hx⟩, fun hx => hx.2⟩

end Sys2Proof
end

