-- ==== Sys2Proof/Tests/Slice0.lean ====
section
/-! SUPPORT. The model's own tests. Expected values are from the spec: words from the encodings R70, R81, R85; steps from
the vectors of 95_test_vectors.md (named in each docstring). The `witness_` theorems meet an obligation's hypotheses. -/

namespace Sys2Proof.Tests

open Sys2Proof Sys2Proof.Machine

/-! ### Words written out from the encodings (R70, R71, R85) -/

theorem test_decode_nop : decodeTableWord 16 0b0000000000 = some .nop := by decide

theorem test_decode_byte : decodeTableWord 16 0b0110100101 = some (.byte 0xA5) := by decide

theorem test_decode_timeout : decodeTableWord 16 0b1000000000 = some .timeout := by decide

theorem test_decode_reset : decodeTableWord 16 0b1100000000 = some (.reset false 0) := by decide

/-- `RESET FILT=0x10` (R89): cfg_filt_en in bit 16, cfg_filt_addr in bits 31:24 (log 5). -/
theorem test_decode_reset_filter :
    decodeTableWord 32 0b00010000000000010000001100000000 = some (.reset true 0x10) := by decide

theorem test_decode_fNone : decodeTableWord 8 0b000 = some .fNone := by decide

theorem test_decode_fOk : decodeTableWord 8 0b001 = some .fOk := by decide

theorem test_decode_fPower : decode (.sel ⟨0b010, 19⟩) = .ok (.fPower 19) := by decide

theorem test_decode_fModeSet : decode (.sel ⟨0b011, 1⟩) = .ok (.fModeSet 1) := by decide

theorem test_decode_fModeGet : decode (.sel ⟨0b100, 2⟩) = .ok (.fModeGet 2) := by decide

theorem test_decode_fFan : decode (.sel ⟨0b101, 3⟩) = .ok (.fFan 3) := by decide

theorem test_decode_fStatus : decode (.sel ⟨0b110, 4⟩) = .ok (.fStatus 4) := by decide

theorem test_decode_fTemp : decode (.sel ⟨0b111, 5⟩) = .ok (.fTemp 5) := by decide

/-- R72: the DATA bits of an operation other than BYTE are ignored. -/
theorem test_decode_data_ignored :
    decodeOp ⟨0b0011111111, false, 0⟩ = .nop ∧ decodeOp ⟨0b1010101010, true, 7⟩ = .timeout ∧
    decodeOp ⟨0b1100000001, false, 9⟩ = .reset false 9 := by decide

/-- A ROM row, field by field as R81 lays them out, the highest bits first. -/
def romRow (k hk p mask exp : Nat) : RomRow :=
  BitVec.ofNat 184 exp ++ BitVec.ofNat 184 mask ++ BitVec.ofNat 5 p ++ BitVec.ofNat 5 hk ++ BitVec.ofNat 5 k

/-- TT[0] of 95_test_vectors.md: k = 2, hk = 1, p = 1, masks FF FF, expected 02 01. -/
theorem test_unpack_tt0 :
    unpackEntry (romRow 2 1 1 0xFFFF 0x0102) = .ok ⟨[(0xFF, 0x02), (0xFF, 0x01)], .powerSet, 1⟩ := by decide

/-- R82: bits of positions at and above `k` are ignored. -/
theorem test_unpack_ignores_beyond_k :
    unpackEntry (romRow 1 18 0 0xAAFF 0x5503) = .ok ⟨[(0xFF, 0x03)], .tempGetAck, 0⟩ := by decide

/-! ### What is ill formed is refused (R8, R83) -/

theorem test_wf_offset : Instr.wf (.fPower 19) = true ∧ Instr.wf (.fPower 20) = false := by decide

theorem test_wf_offset_every_decoder :
    Instr.wf (.fModeSet 20) = false ∧ Instr.wf (.fModeGet 20) = false ∧ Instr.wf (.fFan 31) = false ∧
    Instr.wf (.fStatus 20) = false ∧ Instr.wf (.fTemp 20) = false := by decide

theorem test_decode_refuses_offset :
    decode (.sel ⟨0b010, 20⟩) = .error .illegalOffset ∧ decode (.sel ⟨0b111, 31⟩) = .error .illegalOffset := by decide

theorem test_wf_pattern_length :
    Entry.wf ⟨List.replicate 23 (0, 0), .powerSet, 0⟩ = true ∧
    Entry.wf ⟨List.replicate 24 (0, 0), .powerSet, 0⟩ = false := by decide

theorem test_wf_entry_offset : Entry.wf ⟨[], .powerSet, 20⟩ = false := by decide

theorem test_wf_table_length :
    tableWf (List.replicate 32 ⟨[], .tempGet, 0⟩) = true ∧ tableWf (List.replicate 33 ⟨[], .tempGet, 0⟩) = false := by
  decide

theorem test_unpack_refuses :
    unpackEntry (romRow 24 1 0 0 0) = .error .illegalPatternLength ∧
    unpackEntry (romRow 0 0 0 0 0) = .error .illegalHandlerKind ∧
    unpackEntry (romRow 0 19 0 0 0) = .error .illegalHandlerKind ∧
    unpackEntry (romRow 0 1 20 0 0) = .error .illegalOffset := by decide

theorem test_build_refuses_33 : buildTable (List.replicate 33 (romRow 0 1 0 0 0)) = .error .tooManyEntries := by decide

/-! ### States for one-step tests -/

/-- Entries of the spec's test table TT. -/
def tt : List Entry :=
  [⟨[(0xFF, 0x02), (0xFF, 0x01)], .powerSet, 1⟩, ⟨[(0xFF, 0x02), (0xFF, 0x81)], .powerSetAck, 0⟩,
   ⟨[(0xFF, 0x03)], .tempGetAck, 0⟩]

/-- A buffer holding the bytes from index `i`. -/
def bytesFrom (i : Nat) : List Byte → Memory
  | [] => []
  | b :: bs => if b = 0 then bytesFrom (i + 1) bs else (i, b) :: bytesFrom (i + 1) bs

/-- The block with table `t` in ACC after the bytes `bs` of a frame (at least five). -/
def after (t : List Entry) (bs : List Byte) : State :=
  { State.resetWith t false 0 with
      phase := .acc, cnt := BitVec.ofNat 9 bs.length, csum := bs.sum, len := bs.getD 4 0, buf := bytesFrom 0 bs }

/-- The same in SKIP, condemned at the pre-check. -/
def afterBad (t : List Entry) (bs : List Byte) : State :=
  { after t bs with phase := .skip, csum := 0, skipc := true }

/-- V-SRC-2's frame up to its checksum byte. -/
def src2 : State := after tt [0x10, 0, 0, 0x20, 0x03, 0x0D, 0x01, 0x00, 0xBF]

/-- A check of the record of a step that has a next state. -/
def Shows (o : Host.Outcome State Fault Refusal) (p : State → Bool) : Bool :=
  match o with
  | .next t => p t
  | _ => false

/-! ### One step of each instruction -/

/-- V-ACC-1: NOP keeps a partial frame and its event is NONE. -/
theorem test_nop_keeps_frame :
    Shows (exec .nop src2) (fun t => t.out == OutRecord.zero && t.cnt == 9 && t.buf == src2.buf) = true := by decide

/-- V-SRC-2, byte 10: the frame completes on entry `03` (TEMP_GET_ACK). -/
theorem test_byte_completes :
    Shows (exec (.byte 0x7E) src2) (fun t =>
      t.out.ev == .frameComplete && t.out.fend && t.out.acc == 0x7E && t.out.flen == 10 && t.out.mHit &&
      t.out.mIdx == 2 && t.out.mHk == 18 && t.out.fSel == .fTemp && t.out.fCode == .temp && t.out.fRaw == 0x0D &&
      t.out.c10 == 1301 && t.out.f10 == 2662 && stat0 t == some 0) = true := by decide

/-- V-CS-3, byte 9: BAD_CRC with the sum 0xFF and the nine bytes. -/
theorem test_byte_bad_crc :
    Shows (exec (.byte 0xBE) (after tt [0x10, 0, 0, 0x20, 0x03, 0x0D, 0x01, 0x00])) (fun t =>
      t.out.ev == .badCrc && t.out.chk && t.out.acc == 0xFF && t.out.flen == 9 && t.out.pass && t.phase == .skip &&
      t.out.frame.take 9 == [0x10, 0, 0, 0x20, 0x03, 0x0D, 0x01, 0x00, 0xBE]) = true := by decide

/-- V-ACC-9: TIMEOUT in IDLE is a heartbeat. -/
theorem test_timeout_heartbeat :
    Shows (exec .timeout State.reset) (fun t => t.out.ev == .heartbeat && t.out.sep && !t.out.fend) = true := by decide

/-- V-ACC-10: TIMEOUT in ACC abandons the frame. -/
theorem test_timeout_abandon :
    Shows (exec .timeout src2) (fun t => t.out.ev == .abandon && t.out.sep && t.out.fend && stat0 t == some 0) = true := by
  decide

/-- V-ACC-12: RESET FILT=0x10 in SKIP. -/
theorem test_reset_in_skip :
    Shows (exec (.reset true 0x10) (afterBad tt [0x10, 0, 0, 0x20, 0x06, 1, 2, 3, 4, 5, 6, 0xBA])) (fun t =>
      t.out.ev == .resetDone && !t.out.sep && stat0 t == some 0 && stat1 t == some 0x00100100) = true := by decide

/-- V-ACC-12: the status words of the condemned frame. -/
theorem test_status_words_in_skip :
    stat0 (afterBad tt [0x10, 0, 0, 0x20, 0x06, 1, 2, 3, 4, 5, 6, 0xBA]) = some 0x000C000A ∧
    stat1 (afterBad tt [0x10, 0, 0, 0x20, 0x06, 1, 2, 3, 4, 5, 6, 0xBA]) = some 0x00000006 := by decide

/-- A frame in ACC with payload bytes `x` and `y`, `L = 2`. -/
def payload (x y : Byte) : State := after [] [0x21, 0, 0, 0x12, 0x02, x, y]

/-- V-EX-27: F_NONE. -/
theorem test_fNone : Shows (exec .fNone (payload 0x85 0)) (fun t =>
    t.out.fSel == .fNone && t.out.fCode.code == 14 && t.out.fRaw == 0) = true := by decide

/-- V-EX-26: F_OK. -/
theorem test_fOk : Shows (exec .fOk (payload 0x81 0)) (fun t =>
    t.out.fSel == .fOk && t.out.fCode.code == 12 && t.out.fRaw == 0) = true := by decide

/-- V-EX-1. -/
theorem test_fPower_on : Shows (exec (.fPower 1) (payload 1 0x01)) (fun t =>
    t.out.fSel.code == 2 && t.out.fCode.code == 1 && t.out.fRaw == 1) = true := by decide

/-- V-EX-4. -/
theorem test_fPower_unknown : Shows (exec (.fPower 1) (payload 1 0xFF)) (fun t =>
    t.out.fCode.code == 0 && t.out.fRaw == 0xFF) = true := by decide

/-- V-EX-7. -/
theorem test_fModeSet_auto : Shows (exec (.fModeSet 1) (payload 2 0x20)) (fun t =>
    t.out.fSel.code == 3 && t.out.fCode.code == 5) = true := by decide

/-- V-EX-8: the set code space has no "fan only". -/
theorem test_fModeSet_unknown : Shows (exec (.fModeSet 1) (payload 2 0x0D)) (fun t => t.out.fCode.code == 0) = true := by
  decide

/-- V-EX-12. -/
theorem test_fModeGet_fan_only : Shows (exec (.fModeGet 1) (payload 0x86 0x0D)) (fun t =>
    t.out.fSel.code == 4 && t.out.fCode.code == 6) = true := by decide

/-- V-EX-13. -/
theorem test_fModeGet_unknown : Shows (exec (.fModeGet 1) (payload 0x86 0x20)) (fun t => t.out.fCode.code == 0) = true := by
  decide

/-- V-EX-17. -/
theorem test_fFan_auto : Shows (exec (.fFan 1) (payload 3 0x0B)) (fun t =>
    t.out.fSel.code == 5 && t.out.fCode.code == 5) = true := by decide

/-- V-EX-22. -/
theorem test_fFan_unknown : Shows (exec (.fFan 1) (payload 3 0x0C)) (fun t => t.out.fCode.code == 0) = true := by decide

/-- V-EX-24. -/
theorem test_fStatus_running : Shows (exec (.fStatus 1) (payload 0x8F 1)) (fun t =>
    t.out.fSel.code == 6 && t.out.fCode.code == 11) = true := by decide

/-- V-EX-31: the largest temperature does not wrap in 16 bits. -/
theorem test_fTemp_max : Shows (exec (.fTemp 0) (payload 0xFF 0xFF)) (fun t =>
    t.out.fSel.code == 7 && t.out.fCode.code == 13 && t.out.c10 == 25665 && t.out.f10 == 46517) = true := by decide

/-- V-EX-28: `p + 2 > L` is FIELD_OOR. -/
theorem test_fTemp_outside : Shows (exec (.fTemp 1) (payload 0x0D 0x01)) (fun t =>
    t.out.fCode.code == 15 && t.out.fRaw == 0 && t.out.c10 == 0) = true := by decide

/-- V-ACC-17: refused before the first RESET; RESET is not. -/
theorem test_before_first_reset :
    exec (.byte 0x10) (State.powerOn State.reset) = .refused .beforeFirstReset ∧
    Shows (exec (.reset false 0) (State.powerOn State.reset)) (fun t => t.booted) = true := by
  constructor
  · rfl
  · decide

/-! ### The step runs what is presented -/

theorem test_step_op : step (State.reset.withFetchWord 16 0b0110100101) = exec (.byte 0xA5) { State.reset with out := OutRecord.zero } := rfl

theorem test_step_sel : step (State.reset.withFetchWord 8 0b101) = exec (.fFan 0) { State.reset with out := OutRecord.zero } := rfl

/-- R90's example line, V-ACC-3's bytes. -/
theorem test_assemble_framecs :
    assembleLine (.frameCs 1 2 3 4 [] 0x55) =
      some [⟨0x101, false, 0⟩, ⟨0x102, false, 0⟩, ⟨0x103, false, 0⟩, ⟨0x104, false, 0⟩, ⟨0x100, false, 0⟩,
            ⟨0x1F6, false, 0⟩, ⟨0x155, false, 0⟩] := by decide

/-- V-CS-4, delta 0x01: the checksum byte BF becomes C0. -/
theorem test_assemble_framebad :
    assembleLine (.frameBad 0x10 0 0 0x20 [0x0D, 0x01, 0x00] 0x7E 1) =
      assembleLine (.frame [0x10, 0, 0, 0x20, 3, 0x0D, 0x01, 0x00, 0xC0, 0x7E]) := by decide

theorem test_assemble_text :
    assembleText ['r', 'e', 's', 'e', 't', ' ', 'F', 'I', 'L', 'T', '=', '0', 'x', '1', '0', ' ', ';', 'x'] =
      some [⟨0x300, true, 0x10⟩] := by decide

/-! ### Witnesses: concrete states and operands that meet the hypotheses of each obligation -/

/-- A word with operation code and data, the configuration port carrying a filter. -/
def word (opw : BitVec 10) : OpWord := ⟨opw, true, 0x10⟩

/-- A block before its first RESET, holding values of no meaning. -/
def cold : State := State.powerOn { src2 with phase := .reserved }

/-- A whole frame with a good checksum and `L = 0` (V-ACC-3), up to its checksum byte. -/
def short : State := after tt [1, 2, 3, 4, 0, 0xF6]

/-- V-ACC-4's frame, `L = 20`, without its last byte. -/
def longest : State :=
  after tt ([0x10, 0, 0, 0x20, 0x14] ++ (List.range 20).map (fun i => BitVec.ofNat 8 (i + 1)) ++ [0xEA])

/-- The first 27 bytes of a frame whose declared length is `L`, all zero but the length. -/
def full (L : Byte) : State := after tt ([0, 0, 0, 0, L] ++ List.replicate 22 0)

theorem witness_NopOnlyClearsTheRecord : src2.Running ∧ (word 0x0FF).opw.extractLsb' 8 2 = 0 := by decide

theorem witness_TimeoutIsHeartbeatOrAbandon :
    (State.reset.Running ∧ State.reset.phase = .idle ∧ (word 0x200).opw.extractLsb' 8 2 = 2) ∧
    (src2.Running ∧ src2.phase ≠ .idle ∧ (word 0x2FF).opw.extractLsb' 8 2 = 2) := by decide

theorem witness_ResetClearsAndLatches :
    (tableWf cold.table = true ∧ (word 0x300).opw.extractLsb' 8 2 = 3) ∧
    (tableWf src2.table = true ∧ (word 0x3FF).opw.extractLsb' 8 2 = 3) := by decide

theorem witness_StatusWordsAfterReset : tableWf cold.table = true := by decide

theorem witness_RefusedBeforeFirstReset : tableWf cold.table = true ∧ cold.booted = false := by decide

theorem witness_IllFormedTableHasNoMeaning :
    tableWf (List.replicate 33 ⟨[], .tempGet, 0⟩) = false ∧ tableWf [⟨[], .tempGet, 20⟩] = false := by decide

theorem witness_ReservedPhaseFaults :
    let s := { src2 with phase := .reserved }
    tableWf s.table = true ∧ s.booted = true ∧ s.phase = .reserved ∧ (∀ en addr, Instr.nop ≠ .reset en addr) :=
  ⟨by decide, by decide, rfl, nofun⟩

theorem witness_FirstByteStartsTheFrame : State.reset.Running ∧ State.reset.phase = .idle := by decide

theorem witness_ByteIsStoredCountedAndSummed :
    let early := after tt [0x10]
    let four := after tt [0x10, 0, 0, 0x20]
    let last := after tt ([0x10, 0, 0, 0x20, 0xFF] ++ List.replicate 21 0)
    (early.Running ∧ early.phase = .acc ∧ early.cnt.toNat = 1 ∧ (0 : Byte) = early.len) ∧
    (four.Running ∧ four.phase = .acc ∧ four.cnt.toNat = 4 ∧ 4 + 1 ≠ 6 + (0 : Byte).toNat ∧
      4 + 1 ≠ 7 + (0 : Byte).toNat) ∧
    (last.Running ∧ last.phase = .acc ∧ last.cnt.toNat = 26 ∧ last.len = 0xFF ∧ 26 + 1 ≠ 6 + last.len.toNat ∧
      26 + 1 ≠ 7 + last.len.toNat) := by decide

theorem witness_LengthIsLatchedAtIndexFour :
    let s := after tt [0x10, 0, 0, 0x20]
    s.Running ∧ s.phase = .acc ∧ s.cnt.toNat = 4 ∧ s.buf.wf = true := by decide

theorem witness_PrecheckAtSixPlusL :
    let zero := after tt [1, 2, 3, 4, 0]
    let top := after tt ([0x10, 0, 0, 0x20, 0x15] ++ List.replicate 21 0)
    (zero.Running ∧ zero.phase = .acc ∧ zero.cnt.toNat < 27 ∧ zero.cnt.toNat + 1 = 6 + zero.len.toNat ∧
      zero.csum + 0xF6 = 0) ∧
    (top.Running ∧ top.phase = .acc ∧ top.cnt.toNat < 27 ∧ top.cnt.toNat + 1 = 6 + top.len.toNat ∧
      top.csum + 0 ≠ 0) := by decide

theorem witness_FrameCompletesAtSevenPlusL :
    (short.Running ∧ short.phase = .acc ∧ short.cnt.toNat < 27 ∧ short.cnt.toNat + 1 = 7 + short.len.toNat) ∧
    (longest.Running ∧ longest.phase = .acc ∧ longest.cnt.toNat < 27 ∧
      longest.cnt.toNat + 1 = 7 + longest.len.toNat) := by decide

theorem witness_FullBufferOverflows :
    ((full 21).Running ∧ (full 21).phase = .acc ∧ 27 ≤ (full 21).cnt.toNat ∧
      (full 21).cnt.toNat + 1 = 7 + (full 21).len.toNat) ∧
    ((full 22).Running ∧ (full 22).phase = .acc ∧ 27 ≤ (full 22).cnt.toNat ∧
      (full 22).cnt.toNat + 1 ≠ 7 + (full 22).len.toNat) := by decide

theorem witness_SkippedBytesAreOnlyCounted :
    let ends := afterBad tt [1, 2, 3, 4, 0, 0xF7]
    let goes := { full 30 with phase := .skip, ovf := true }
    (ends.Running ∧ ends.phase = .skip ∧ ends.cnt.toNat + 1 = 7 + ends.len.toNat) ∧
    (goes.Running ∧ goes.phase = .skip ∧ goes.cnt.toNat + 1 ≠ 7 + goes.len.toNat) := by decide

theorem witness_ByteRaisesOneEvent : src2.Running := by decide

/-- An overflow and a bad checksum. -/
theorem witness_DiagnosticsLeaveAcc :
    (∃ t, exec (.byte 0) (full 22) = .next t ∧ t.out.ev = .overflow) ∧
    (∃ t, exec (.byte 0xF7) (after tt [1, 2, 3, 4, 0]) = .next t ∧ t.out.ev = .badCrc) :=
  ⟨⟨_, exec_byte_running _ (by decide), by decide⟩, ⟨_, exec_byte_running _ (by decide), by decide⟩⟩

/-- A first byte; a byte in a frame; a completed frame; a condemned one. -/
theorem witness_EveryByteIsSummed :
    (∃ t, exec (.byte 0xFF) State.reset = .next t ∧ State.reset.phase = .idle) ∧
    (∃ t, exec (.byte 0x20) (after tt [0xF0]) = .next t ∧ t.phase ≠ .idle ∧ t.out.ev ≠ .badCrc) ∧
    (∃ t, exec (.byte 0x7E) src2 = .next t ∧ t.out.ev = .frameComplete) ∧
    (∃ t, exec (.byte 0xF7) (after tt [1, 2, 3, 4, 0]) = .next t ∧ t.out.ev = .badCrc) :=
  ⟨⟨_, exec_byte_running _ (by decide), by decide⟩, ⟨_, exec_byte_running _ (by decide), by decide⟩,
   ⟨_, exec_byte_running _ (by decide), by decide⟩, ⟨_, exec_byte_running _ (by decide), by decide⟩⟩

theorem src2_inv : src2.Inv := ⟨by decide, by decide, fun _ => by show src2.AccInv; decide⟩

theorem witness_CompletionSumIsTheTrailer :
    src2.Inv ∧ ∃ t, exec (.byte 0x7E) src2 = .next t ∧ t.out.ev = .frameComplete :=
  ⟨src2_inv, _, exec_byte_running _ (by decide), by decide⟩

/-- A byte that is stored, at the last cell; and one that is not. -/
theorem witness_ByteStoresOnlyAtItsIndex :
    (longest.buf.wf = true ∧ (∃ t, exec (.byte 0x7E) longest = .next t) ∧ (frameStart longest).phase = .acc ∧
      storeIndex (frameStart longest).cnt = some 26) ∧
    ((full 22).buf.wf = true ∧ (∃ t, exec (.byte 1) (full 22) = .next t) ∧
      storeIndex (frameStart (full 22)).cnt = none) :=
  ⟨⟨by decide, ⟨_, exec_byte_running _ (by decide)⟩, by decide, by decide⟩,
   ⟨by decide, ⟨_, exec_byte_running _ (by decide)⟩, by decide⟩⟩

/-- NOP and a decoder. -/
theorem witness_OnlyTheRecordChanges :
    (∃ t, exec .nop src2 = .next t) ∧ (∃ t, exec (.fTemp 0) src2 = .next t) ∧
    (∀ b, Instr.fTemp 0 ≠ .byte b) ∧ Instr.fTemp 0 ≠ .timeout ∧ (∀ en addr, Instr.fTemp 0 ≠ .reset en addr) :=
  ⟨⟨_, exec_nop_running (by decide)⟩, ⟨_, exec_field_running .fTemp 0 (by decide) (by decide)⟩, nofun, nofun, nofun⟩

/-- BYTE, and TIMEOUT, which is neither RESET nor BYTE. -/
theorem witness_ConfigurationChangesOnlyByReset :
    (∃ t, exec (.byte 1) src2 = .next t) ∧ (∃ t, exec .timeout src2 = .next t) ∧
    (∀ en addr, Instr.timeout ≠ .reset en addr) ∧ (∀ b, Instr.timeout ≠ .byte b) :=
  ⟨⟨_, exec_byte_running _ (by decide)⟩, ⟨_, exec_timeout_running (by decide)⟩, nofun, nofun⟩

/-- Two states that agree on the frame only. -/
theorem witness_DecodersReadOnlyTheFrame :
    let s' := { src2 with csum := 7, filtEn := true }
    src2.buf = s'.buf ∧ src2.len = s'.len ∧ (∃ t, exec (FSel.fTemp.instr 0) src2 = .next t) ∧
    (∃ t, exec (FSel.fTemp.instr 0) s' = .next t) :=
  ⟨rfl, rfl, ⟨_, exec_field_running .fTemp 0 (by decide) (by decide)⟩,
   ⟨_, exec_field_running .fTemp 0 (by decide) (by decide)⟩⟩

theorem witness_NoneAndOkReadNoByte :
    (clearOut (payload 1 1)).Running ∧ (clearOut (payload 1 1)).out = OutRecord.zero := by decide

/-- For the five decoders of one byte: the first payload byte, and the last one a table may name (offset 19, `L = 20`). -/
theorem witness_OneByteFields :
    let pay := clearOut (payload 1 7)
    let top := clearOut longest
    (pay.Running ∧ pay.out = OutRecord.zero ∧ (0 : Offset).toNat ≤ 19 ∧ (0 : Offset).toNat + 1 ≤ pay.len.toNat ∧
      (1 : Byte) = pay.buf.read (5 + (0 : Offset).toNat)) ∧
    (top.Running ∧ top.out = OutRecord.zero ∧ (19 : Offset).toNat ≤ 19 ∧ (19 : Offset).toNat + 1 ≤ top.len.toNat ∧
      (0x14 : Byte) = top.buf.read (5 + (19 : Offset).toNat)) := by decide

theorem witness_TemperatureFieldDecodes :
    let top := clearOut longest
    top.Running ∧ top.out = OutRecord.zero ∧ (18 : Offset).toNat ≤ 19 ∧ (18 : Offset).toNat + 2 ≤ top.len.toNat ∧
    (0x13 : Byte) = top.buf.read (5 + (18 : Offset).toNat) ∧
    (0x14 : Byte) = top.buf.read (6 + (18 : Offset).toNat) := by decide

/-- The temperature field that has one byte too few; a one-byte field just outside. -/
theorem witness_FieldOutsideThePayload :
    let pay := clearOut (payload 1 1)
    let top := clearOut longest
    (top.Running ∧ top.out = OutRecord.zero ∧ (19 : Offset).toNat ≤ 19 ∧ 0 < fieldWidth .fTemp ∧
      top.len.toNat < (19 : Offset).toNat + fieldWidth .fTemp) ∧
    (pay.Running ∧ pay.out = OutRecord.zero ∧ (2 : Offset).toNat ≤ 19 ∧ 0 < fieldWidth .fPower ∧
      pay.len.toNat < (2 : Offset).toNat + fieldWidth .fPower) := by decide

/-- An entry with an expected bit outside its mask; an empty pattern. -/
theorem witness_EntryPredicateIsTheSpecs :
    (∃ i, ∃ h : i < [((0 : Byte), (1 : Byte))].length,
      ([((0 : Byte), (1 : Byte))][i]).2 &&& ~~~([((0 : Byte), (1 : Byte))][i]).1 ≠ 0) ∧
    (Entry.mk [] .tempGet 0).pat = [] := ⟨⟨0, by decide, by decide⟩, rfl⟩

/-- V-SRC-2's last byte: entry 2 describes the frame and no earlier one does. The hypotheses of
`MultiplexerRunsTheSelectedDecoder` are the same. -/
theorem witness_FirstMatchWins :
    src2.Running ∧ src2.phase = .acc ∧ src2.cnt.toNat < 27 ∧ src2.cnt.toNat + 1 = 7 + src2.len.toNat ∧
    src2.table[2]? = some ⟨[(0xFF, 0x03)], .tempGetAck, 0⟩ ∧
    EntryDescribes (src2.buf.write src2.cnt.toNat 0x7E) (7 + src2.len.toNat) ⟨[(0xFF, 0x03)], .tempGetAck, 0⟩ ∧
    (∀ j' e', j' < 2 → src2.table[j']? = some e' →
      ¬ EntryDescribes (src2.buf.write src2.cnt.toNat 0x7E) (7 + src2.len.toNat) e') := by
  refine ⟨by decide, by decide, by decide, by decide, by decide, by decide, ?_⟩
  intro j' e' hj he
  have h0 : ∀ j : Fin 2, ∀ e ∈ src2.table[j.val]?,
      ¬ EntryDescribes (src2.buf.write src2.cnt.toNat 0x7E) (7 + src2.len.toNat) e := by decide
  exact h0 ⟨j', hj⟩ e' he

/-- V-ACC-3: no entry describes the frame. -/
theorem witness_UnmatchedFrameIsUnrecognized :
    short.Running ∧ short.phase = .acc ∧ short.cnt.toNat < 27 ∧ short.cnt.toNat + 1 = 7 + short.len.toNat ∧
    (∀ e ∈ short.table, ¬ EntryDescribes (short.buf.write short.cnt.toNat 0x55) (7 + short.len.toNat) e) := by decide

/-- A step that reports a frame and one that does not. -/
theorem witness_FilterComparesBytesOneAndTwo :
    (∃ t, exec (.byte 0x7E) { src2 with filtEn := true, filtAddr := 0x10 } = .next t ∧ t.out.ev = .frameComplete) ∧
    (∃ t, exec (.byte 0) State.reset = .next t ∧ t.out.ev ≠ .frameComplete ∧ t.out.ev ≠ .badCrc) :=
  ⟨⟨_, exec_byte_running _ (by decide), by decide⟩, ⟨_, exec_byte_running _ (by decide), by decide⟩⟩

theorem witness_FilterChangesNothingElse : src2.Running := by decide

theorem witness_ConfigPortSampledOnlyByReset :
    let s := { src2 with inputs := [word 0x17E] }
    s.probe = none ∧ s.inputs = word 0x17E :: [] ∧ (word 0x17E).opw.extractLsb' 8 2 ≠ 3 := by decide

theorem witness_DataBitsIgnored :
    let s := { src2 with inputs := [word 0x200] }
    s.probe = none ∧ s.inputs = word 0x200 :: [] ∧ (word 0x200).opw.extractLsb' 8 2 ≠ 1 ∧
    (word 0x2FF).opw.extractLsb' 8 2 = (word 0x200).opw.extractLsb' 8 2 := by decide

theorem witness_ReservedEventsNeverProduced :
    ∃ t, exec .nop (clearOut src2) = .next t ∧ (clearOut src2).out = OutRecord.zero :=
  ⟨_, exec_nop_running (by decide), rfl⟩

theorem witness_StatFields : src2.booted = true := by decide

theorem witness_DecodeInvertsEncode : Instr.wf (.fTemp 19) = true ∧ Instr.wf (.byte 0xFF) = true := by decide

theorem witness_UnpackInvertsPack : Entry.wf ⟨List.replicate 23 (0xFF, 0x5A), .tempGetAck, 19⟩ = true := by decide

/-- A row at every bound; 32 legal rows, which are built, and the last of them; an illegal row; one row too many. -/
theorem witness_IllegalRowsRefused :
    (∃ e, unpackEntry (romRow 23 18 19 0 0) = .ok e) ∧
    ((List.replicate 32 (romRow 0 1 0 0 0)).length ≤ 32 ∧
      ∀ r ∈ List.replicate 32 (romRow 0 1 0 0 0), ∃ e, unpackEntry r = .ok e) ∧
    ((∃ t, buildTable (List.replicate 32 (romRow 0 1 0 0 0)) = .ok t) ∧
      (List.replicate 32 (romRow 0 1 0 0 0))[31]? = some (romRow 0 1 0 0 0)) ∧
    (romRow 24 1 0 0 0 ∈ [romRow 24 1 0 0 0] ∧ ¬ ∃ e, unpackEntry (romRow 24 1 0 0 0) = .ok e) ∧
    32 < (List.replicate 33 (romRow 0 1 0 0 0)).length := by
  refine ⟨⟨_, rfl⟩, ⟨by decide, ?_⟩, ⟨⟨_, rfl⟩, rfl⟩, ⟨List.mem_singleton.2 rfl, ?_⟩, by decide⟩
  · intro r hr
    rw [List.eq_of_mem_replicate hr]
    exact ⟨_, rfl⟩
  · rintro ⟨e, he⟩
    rw [test_unpack_refuses.1] at he
    cases he

/-- An operation presented, a select word presented, a rejected select word, and nothing presented. -/
theorem witness_StepRunsThePresentedInstruction :
    (let s := State.reset.withFetchWord 16 0x1A5; s.probe = none ∧ s.inputs = ⟨0x1A5, false, 0⟩ :: []) ∧
    (let s := State.reset.withFetchWord 8 5; s.probe = some ⟨5, 0⟩ ∧ decode (.sel ⟨5, 0⟩) = .ok (.fFan 0)) ∧
    (let s := present (.sel ⟨5, 20⟩) State.reset
     s.probe = some ⟨5, 20⟩ ∧ decode (.sel ⟨5, 20⟩) = .error .illegalOffset) ∧
    (State.reset.probe = none ∧ State.reset.inputs = []) := by decide

/-- A good checksum byte and a perturbation of it. -/
theorem witness_ChecksumByteIsUnique :
    validate (([1, 2, 3, 4, 0] : List Byte).sum + 0xF6) = .ok ∧ (1 : Byte) ≠ 0 := by decide

/-- Operands at both sides of each bound: a byte, a frame's bytes, the payload's length (none, 255, 256), delta. -/
theorem witness_AssemblerWordsAsWritten :
    (255 < 256 ∧ 256 ≤ 256) ∧
    ((∀ x ∈ [0, 255], x < 256) ∧ ∃ x ∈ [0, 256], 256 ≤ x) ∧
    ((∀ x ∈ [1, 2, 3, 4, 0x55] ++ ([] : List Nat), x < 256) ∧ ([] : List Nat).length < 256) ∧
    ((∀ x ∈ [1, 2, 3, 4, 0x55] ++ List.replicate 255 0, x < 256) ∧ (List.replicate 255 0).length < 256) ∧
    ((∃ x ∈ [1, 2, 3, 4, 256] ++ ([] : List Nat), 256 ≤ x) ∧ 256 ≤ (List.replicate 256 0).length) ∧
    (1 ≤ 1 ∧ 255 < 256 ∧ 0 = 0 ∧ 256 ≤ 256) := by
  have few : ∀ x ∈ [1, 2, 3, 4, 0x55], x < 256 := by decide
  refine ⟨by decide, by decide, by decide, ⟨fun x hx => ?_, ?_⟩, ⟨by decide, ?_⟩, by decide⟩
  · rcases List.mem_append.1 hx with h | h
    · exact few x h
    · rw [List.eq_of_mem_replicate h]; decide
  · rw [List.length_replicate]; decide
  · rw [List.length_replicate]

theorem reset_inv : State.reset.Inv := ⟨by decide, by decide, fun _ => by show State.reset.IdleInv; decide⟩

theorem witness_StepKeepsInv :
    { src2 with inputs := [word 0x17E] }.Inv ∧ ∃ t, step { src2 with inputs := [word 0x17E] } = .next t :=
  ⟨src2_inv, _, rfl⟩

theorem witness_CountNeverExceeds262 :
    { src2 with inputs := [word 0x17E] }.Inv ∧ src2.booted = true ∧
    ∃ t, step { src2 with inputs := [word 0x17E] } = .next t :=
  ⟨src2_inv, by decide, _, rfl⟩

/-- The block in IDLE, about to be given the bytes `bs`. -/
def fed (bs : List Byte) : State := { State.resetWith tt false 0 with inputs := bs.map byteWord }

/-- A good frame with `L = 0` and a bad one. -/
theorem witness_AcceptanceIsTheChecksum :
    let good : List Byte := [1, 2, 3, 4, 0, 0xF6, 0x55]
    let bad : List Byte := [1, 2, 3, 4, 0, 0xF7, 0x55]
    ((fed good).Fed good [] ∧ IsFrame 0 good ∧ (good.take 6).sum = 0) ∧
    ((fed bad).Fed bad [] ∧ IsFrame 0 bad ∧ (bad.take 6).sum ≠ 0) := by decide

/-- `L = 21` with a good and with a bad checksum, and `L = 22`. -/
theorem witness_OverlongFramesOverflow :
    let good : List Byte := [0, 0, 0, 0, 21] ++ List.replicate 21 0 ++ [0xEB, 0]
    let bad : List Byte := [0, 0, 0, 0, 21] ++ List.replicate 23 0
    let long : List Byte := [0, 0, 0, 0, 22] ++ List.replicate 24 0
    ((fed good).Fed good [] ∧ IsFrame 21 good ∧ (good.take 27).sum = 0) ∧
    ((fed bad).Fed bad [] ∧ IsFrame 21 bad ∧ (bad.take 27).sum ≠ 0) ∧
    ((fed long).Fed long [] ∧ IsFrame 22 long) := by decide

theorem witness_SkipEndsByCount :
    let s := { afterBad tt [1, 2, 3, 4, 0, 0xF7] with inputs := [byteWord 9] }
    s.Running ∧ s.phase = .skip ∧ s.SkipInv ∧ s.probe = none ∧ s.inputs = [9].map byteWord ++ [] ∧
    ([9] : List Byte).length = 7 + s.len.toNat - s.cnt.toNat := by decide

/-- Two blocks in ACC that differ in a cell above the count. -/
theorem witness_StaleCellsUnobservable :
    let s' := { src2 with buf := src2.buf ++ [(20, 0x33)] }
    src2.buf.wf = true ∧ s'.buf.wf = true ∧ s' = { src2 with buf := s'.buf } ∧
    (∀ i, i < src2.cnt.toNat → s'.buf.read i = src2.buf.read i) ∧
    ∃ t, exec (decodeOp (word 0x17E)) src2 = .next t :=
  ⟨by decide, by decide, rfl, by decide, _, rfl⟩

/-- A RESET and a byte, from a block in the middle of a frame and from one never RESET. -/
theorem witness_SessionsAreIdempotent :
    let s := { src2 with inputs := [word 0x300, word 0x1AA] }
    let s' := { cold with inputs := [word 0x300, word 0x1AA] }
    s.buf.wf = true ∧ s'.buf.wf = true ∧ s'.table = s.table ∧ s.probe = none ∧ s'.probe = none ∧
    s.inputs = s'.inputs ∧ (word 0x300).opw.extractLsb' 8 2 = 3 ∧ ∃ t, run 2 s = .next t :=
  ⟨by decide, by decide, rfl, rfl, rfl, rfl, by decide, _, rfl⟩

end Sys2Proof.Tests
end

