-- ==== Sys2Proof/Proofs/IllegalRows.lean ====
section
/-! PROOF of O47 (30_encoding.md R83): which ROM rows are given a meaning, and which lists of rows are built. -/

namespace Sys2Proof

/-! ### Handler kind codes -/

/-- A code names a handler kind exactly when it is one of 1 to 18 (R84). -/
theorem HandlerKind.exists_ofCode_iff {c : BitVec 5} :
    (∃ hk, HandlerKind.ofCode c = some hk) ↔ 1 ≤ c.toNat ∧ c.toNat ≤ 18 := by
  have hlen : HandlerKind.all.length = 18 := rfl
  unfold HandlerKind.ofCode
  split
  · next h => simp [h]
  · next h =>
    have hpos : c.toNat ≠ 0 := fun h0 => h (BitVec.eq_of_toNat_eq h0)
    rw [← Option.isSome_iff_exists, isSome_getElem?, hlen]
    omega

/-- The handler kind read from a code has that code: `HandlerKind.all` is in the order of the codes. -/
theorem HandlerKind.code_of_ofCode {c : BitVec 5} {hk : HandlerKind} (h : HandlerKind.ofCode c = some hk) :
    hk.code = c := by
  have hall : ∀ c : BitVec 5, (HandlerKind.ofCode c).all (fun k => k.code == c) = true := by decide
  simpa [h] using hall c

/-! ### The fields of a row as numbers -/

theorem RomRow.toNat_field (r : RomRow) (lo n : Nat) : (r.extractLsb' lo n).toNat = r.toNat / 2 ^ lo % 2 ^ n := by
  rw [BitVec.extractLsb'_toNat, Nat.shiftRight_eq_div_pow]

/-- Whether a row is given a meaning depends on its length, offset and handler kind alone. -/
theorem exists_unpackEntry_iff {r : RomRow} :
    (∃ e, unpackEntry r = .ok e) ↔
      (r.extractLsb' 0 5).toNat ≤ Config.kMax ∧ offsetWf (r.extractLsb' 10 5) = true ∧
      ∃ hk, HandlerKind.ofCode (r.extractLsb' 5 5) = some hk := by
  constructor
  · rintro ⟨e, he⟩
    obtain ⟨hlen, hoff, hhk, -, -⟩ := unpackEntry_ok he
    exact ⟨hlen, hoff, _, hhk⟩
  · rintro ⟨hlen, hoff, hk, hhk⟩
    simp only [unpackEntry, hoff, hhk, if_neg (Nat.not_lt.2 hlen), Bool.true_eq_false, if_false]
    exact ⟨_, rfl⟩

/-- R83 in numbers. -/
theorem exists_unpackEntry_iff_toNat {r : RomRow} :
    (∃ e, unpackEntry r = .ok e) ↔
      r.toNat % 32 ≤ 23 ∧ 1 ≤ r.toNat / 32 % 32 ∧ r.toNat / 32 % 32 ≤ 18 ∧ r.toNat / 1024 % 32 ≤ 19 := by
  have hmax : Config.kMax = 23 := rfl
  rw [exists_unpackEntry_iff, offsetWf_iff, HandlerKind.exists_ofCode_iff, hmax]
  simp only [RomRow.toNat_field, Nat.reducePow, Nat.div_one]
  omega

/-- R81 in numbers: each field of an accepted row's entry is at its bits. -/
theorem unpackEntry_fields {r : RomRow} {e : Entry} (h : unpackEntry r = .ok e) :
    e.k = r.toNat % 32 ∧ e.hk.code.toNat = r.toNat / 32 % 32 ∧ e.p.toNat = r.toNat / 1024 % 32 ∧
    ∀ (i : Nat) (hi : i < e.pat.length),
      (e.pat[i]).1.toNat = r.toNat / 2 ^ (15 + 8 * i) % 256 ∧
      (e.pat[i]).2.toNat = r.toNat / 2 ^ (199 + 8 * i) % 256 := by
  obtain ⟨-, -, hhk, hp, hpat⟩ := unpackEntry_ok h
  refine ⟨?_, ?_, ?_, fun i hi => ?_⟩
  · simp only [Entry.k, hpat, List.length_map, List.length_range, RomRow.toNat_field, Nat.reducePow, Nat.div_one]
  · simp only [HandlerKind.code_of_ofCode hhk, RomRow.toNat_field, Nat.reducePow]
  · simp only [hp, RomRow.toNat_field, Nat.reducePow]
  · simp only [hpat, List.getElem_map, List.getElem_range, romMask, romExp, RomRow.toNat_field, Nat.reducePow, and_self]

theorem unpackEntry_wf {r : RomRow} {e : Entry} (h : unpackEntry r = .ok e) : e.wf = true := by
  obtain ⟨hlen, -, -, hoff⟩ := exists_unpackEntry_iff_toNat.1 ⟨e, h⟩
  obtain ⟨hk, -, hp, -⟩ := unpackEntry_fields h
  rw [Entry.k] at hk
  exact entry_wf_iff.2 ⟨by omega, by omega⟩

/-! ### Lists of rows -/

/-- A list of rows is unpacked to `t` exactly when its rows, each by itself, are unpacked to the entries of `t` in
order. -/
theorem unpackRows_ok_iff {rows : List RomRow} {t : List Entry} :
    unpackRows rows = .ok t ↔ rows.map unpackEntry = t.map .ok := by
  induction rows generalizing t with
  | nil =>
    rw [unpackRows, List.map_nil, eq_comm (a := []), List.map_eq_nil_iff, Except.ok.injEq, eq_comm]
  | cons r rs ih =>
    rw [unpackRows_cons, List.map_cons, eq_comm (a := _ :: _), List.map_eq_cons_iff]
    simp only [ih]
    constructor
    · rintro ⟨e, es, he, hes, rfl⟩
      exact ⟨e, es, rfl, he.symm, hes.symm⟩
    · rintro ⟨e, es, rfl, he, hes⟩
      exact ⟨e, es, he.symm, hes.symm, rfl⟩

/-- A list of rows is built exactly when it has at most 32 rows, all of them given a meaning (R83). -/
theorem exists_buildTable_iff {rows : List RomRow} :
    (∃ t, buildTable rows = .ok t) ↔ rows.length ≤ 32 ∧ ∀ r ∈ rows, ∃ e, unpackEntry r = .ok e := by
  have hrange : (∃ t : List Entry, rows.map unpackEntry = t.map .ok) ↔ ∀ x ∈ rows.map unpackEntry, ∃ e, .ok e = x := by
    simpa [eq_comm] using Set.ext_iff.1 (Set.range_list_map (Except.ok (ε := DecodeError) (α := Entry)))
      (rows.map unpackEntry)
  simp only [buildTable_ok, unpackRows_ok_iff, exists_and_left, hrange, List.forall_mem_map,
    eq_comm (b := unpackEntry _)]
  rfl

/-- Entry `j` of a built table is row `j` unpacked (R81). -/
theorem buildTable_getElem? {rows : List RomRow} {t : List Entry} (h : buildTable rows = .ok t) {j : Nat} {r : RomRow}
    (hr : rows[j]? = some r) : ∃ e, unpackEntry r = .ok e ∧ t[j]? = some e := by
  have hj := congrArg (·[j]?) (unpackRows_ok_iff.1 (buildTable_ok.1 h).2)
  simp only [List.getElem?_map, hr, Option.map_some] at hj
  obtain ⟨e, ht, he⟩ := Option.map_eq_some_iff.1 hj.symm
  exact ⟨e, he.symm, ht⟩

theorem buildTable_length {rows : List RomRow} {t : List Entry} (h : buildTable rows = .ok t) :
    t.length = rows.length := by
  simpa using (congrArg List.length (unpackRows_ok_iff.1 (buildTable_ok.1 h).2)).symm

/-- A built table is well formed (R8). -/
theorem buildTable_wf {rows : List RomRow} {t : List Entry} (h : buildTable rows = .ok t) : tableWf t = true := by
  obtain ⟨hlen, hrows⟩ := buildTable_ok.1 h
  refine tableWf_iff.2 ⟨(buildTable_length h).trans_le hlen, fun e he => ?_⟩
  have hmem : .ok e ∈ rows.map unpackEntry := by
    rw [unpackRows_ok_iff.1 hrows]
    exact List.mem_map_of_mem he
  obtain ⟨r, -, hr⟩ := List.mem_map.1 hmem
  exact unpackEntry_wf hr

/-- What is not built is refused with an error. -/
theorem exists_buildTable_error {rows : List RomRow} (h : ¬ ∃ t, buildTable rows = .ok t) :
    ∃ x, buildTable rows = .error x := by
  cases hb : buildTable rows with
  | ok t => exact absurd ⟨t, hb⟩ h
  | error x => exact ⟨x, rfl⟩

/-- Settles O47: an accepted row's three small fields decide, and a list of rows is built row by row. -/
theorem illegalRowsRefused : Obligations.IllegalRowsRefused := by
  refine ⟨fun r => exists_unpackEntry_iff_toNat, fun r e => unpackEntry_fields, ?_, ?_, ?_, ?_⟩
  · intro rows hlen hrows
    exact exists_buildTable_iff.2 ⟨hlen, hrows⟩
  · intro rows t h
    exact ⟨buildTable_wf h, buildTable_length h, fun j r => buildTable_getElem? h⟩
  · intro rows r hr hbad
    exact exists_buildTable_error fun hb => hbad ((exists_buildTable_iff.1 hb).2 r hr)
  · intro rows hlen
    exact if_pos hlen

end Sys2Proof
end

