-- ==== Sys2Proof/Proofs/FrameAccumulator.lean ====
section
/-! PROOF of O14, O15, O1, O2, O3, O8 and O10 (40_frame_accumulator.md): what NOP, TIMEOUT, RESET and BYTE do in each
phase, and the event of every BYTE. -/

namespace Sys2Proof

/-! ### The operation an operation word selects (R70) -/

theorem decodeOp_nop {w : OpWord} (h : w.opw.extractLsb' 8 2 = 0) : decodeOp w = .nop := by
  simp [decodeOp, h]

theorem decodeOp_timeout {w : OpWord} (h : w.opw.extractLsb' 8 2 = 2) : decodeOp w = .timeout := by
  simp [decodeOp, h]

theorem decodeOp_reset {w : OpWord} (h : w.opw.extractLsb' 8 2 = 3) :
    decodeOp w = .reset w.cfgFiltEn w.cfgFiltAddr := by
  simp [decodeOp, h]

end Sys2Proof

namespace Sys2Proof.Machine

/-! ### TIMEOUT in each phase (R111) -/

theorem timeoutStep_idle {s : State} (h : s.phase = .idle) :
    timeoutStep s = { s with out := { OutRecord.zero with ev := .heartbeat, sep := true } } := by
  rw [timeoutStep, if_pos (by exact h)]
  rfl

theorem timeoutStep_busy {s : State} (h : s.phase ≠ .idle) :
    timeoutStep s =
      { s with phase := .idle, cnt := 0, csum := 0, len := 0, ovf := false, skipc := false
               out := { OutRecord.zero with ev := .abandon, sep := true, fend := true } } := by
  rw [timeoutStep, if_neg (by exact h)]
  rfl

/-! ### The length latch (R104) -/

/-- The byte of frame index 4 brings neither the pre-check nor the frame's end, whose counts are both above 5. -/
theorem byteStep_acc_four {s : State} (b : Byte) (h : s.phase = .acc) (h4 : s.cnt.toNat = 4) :
    byteStep b s =
      { s with cnt := 5, csum := s.csum + b, len := b
               buf := s.buf.write 4 b, out := { OutRecord.zero with ev := .continuing } } := by
  have hcnt : s.cnt = 4 := count_eq_four.2 h4
  have hlen : latched s.cnt b s.len = b := if_pos hcnt
  rw [byteStep_acc_mid b h (by simp [h4, Config.bufCap])
    (by rw [next_eq_precheckCount]; omega) (by rw [next_eq_frameCount]; omega), hlen, hcnt]
  rfl

/-! ### The event of a BYTE (R116) -/

@[simp] theorem complete_out_ev (n1 : Count) (s : State) : (complete n1 s).out.ev = .frameComplete := by
  simp [complete_eq]

@[simp] theorem complete_out_fend (n1 : Count) (s : State) : (complete n1 s).out.fend = true := by
  simp [complete_eq]

/-- What the record of a BYTE in state `s` may say of the frame's end: each event with whether it ends the frame. -/
inductive ByteEnds (s : State) : Event → Bool → Prop where
  | continuing : ByteEnds s .continuing false
  | badCrc : ByteEnds s .badCrc false
  | frameComplete : ByteEnds s .frameComplete true
  | skipEnd : ByteEnds s .skipEnd true
  | overflowLast (h : s.cnt.toNat + 1 = 7 + s.len.toNat) : ByteEnds s .overflow true
  | overflowMid (h : s.cnt.toNat + 1 ≠ 7 + s.len.toNat) : ByteEnds s .overflow false

/-- Every path of a BYTE raises one event, and which one says whether the frame ends. -/
theorem byteStep_ends (b : Byte) {s : State} (hr : s.phase ≠ .reserved) :
    ByteEnds s (byteStep b s).out.ev (byteStep b s).out.fend := by
  rcases byteStep_cases b s hr with
    hp | ⟨hp, hn, hpre | ⟨h5, hend, h4⟩ | ⟨hpre, hend⟩⟩ | ⟨hp, hn⟩ | hp
  · rw [byteStep_idle b hp]
    exact .continuing
  · by_cases hsum : s.csum + b = 0
    · rw [byteStep_acc_pass b hp hn hpre hsum]
      exact .continuing
    · rw [byteStep_acc_fail b hp hn hpre hsum]
      exact .badCrc
  · rw [byteStep_acc_complete b hp hn ⟨h5, hend⟩ h4, complete_out_ev, complete_out_fend]
    exact .frameComplete
  · rw [byteStep_acc_mid b hp hn hpre hend]
    exact .continuing
  · rw [byteStep_overflow b hp hn]
    split
    · next hlast => exact .overflowLast (next_eq_frameCount.1 hlast)
    · next hmid => exact .overflowMid (mt next_eq_frameCount.2 hmid)
  · by_cases hlast : s.cnt + 1 = frameCount s.len
    · rw [byteStep_skip_end b hp hlast]
      exact .skipEnd
    · rw [byteStep_skip_mid b hp hlast]
      exact .continuing

theorem ByteEnds.event {s : State} {e : Event} {fend : Bool} (h : ByteEnds s e fend) :
    e = .continuing ∨ e = .overflow ∨ e = .badCrc ∨ e = .frameComplete ∨ e = .skipEnd := by
  cases h <;> simp

theorem ByteEnds.fend_iff {s : State} {e : Event} {fend : Bool} (h : ByteEnds s e fend) :
    fend = true ↔
      e = .frameComplete ∨ e = .skipEnd ∨ (e = .overflow ∧ s.cnt.toNat + 1 = 7 + s.len.toNat) := by
  cases h <;> simp [*]

/-! ### The statements -/

/-- Settles O14: the two paths of a BYTE in SKIP, told apart by the frame's last count. -/
theorem skippedBytesAreOnlyCounted : Obligations.SkippedBytesAreOnlyCounted := by
  intro s b hrun hskip
  rw [exec_byte_running b hrun]
  split
  · next hlast => rw [byteStep_skip_end b hskip (next_eq_frameCount.2 hlast)]
  · next hmid => rw [byteStep_skip_mid b hskip (mt next_eq_frameCount.1 hmid)]

/-- Settles O15: the paths of a BYTE, each with its event. -/
theorem byteRaisesOneEvent : Obligations.ByteRaisesOneEvent := by
  intro s b hrun
  have ⟨_, _, hphase⟩ := hrun
  have hends := byteStep_ends b hphase
  exact ⟨byteStep b s, exec_byte_running b hrun, hends.event, hends.fend_iff⟩

/-- Settles O1: clearing the record is all a NOP does. -/
theorem nopOnlyClearsTheRecord : Obligations.NopOnlyClearsTheRecord := by
  intro w s hrun hop
  exact ⟨decodeOp_nop hop, exec_nop_running hrun⟩

/-- Settles O2, by whether a frame is in progress. -/
theorem timeoutIsHeartbeatOrAbandon : Obligations.TimeoutIsHeartbeatOrAbandon := by
  intro w s hrun hop
  refine ⟨decodeOp_timeout hop, ?_⟩
  rw [exec_timeout_running hrun]
  split
  · next hidle => rw [timeoutStep_idle hidle]
  · next hbusy => rw [timeoutStep_busy hbusy]

/-- Settles O3: RESET asks only for a well-formed table, and its step is the state named. -/
theorem resetClearsAndLatches : Obligations.ResetClearsAndLatches := by
  intro w s htable hop
  exact ⟨decodeOp_reset hop, exec_reset_built _ _ htable⟩

/-- Settles O8: the path of a BYTE in IDLE. -/
theorem firstByteStartsTheFrame : Obligations.FirstByteStartsTheFrame := by
  intro s b hrun hidle
  rw [exec_byte_running b hrun, byteStep_idle b hidle]

/-- Settles O10: the byte of frame index 4 goes both to `LEN` and to the cell it is read from. -/
theorem lengthIsLatchedAtIndexFour : Obligations.LengthIsLatchedAtIndexFour := by
  intro s b hrun hacc h4
  refine ⟨_, exec_byte_running b hrun, ?_⟩
  rw [byteStep_acc_four b hacc h4]
  exact ⟨rfl, hacc, rfl, fun hwf => by simp [lengthByte, Memory.read_write _ _ _ _ hwf]⟩

end Sys2Proof.Machine
end

/-! PROOF of O11, O17, O18 and O50 (41_checksum.md): what a BYTE does to the sum, the pre-check at byte count `6 + LEN`,
the sum reported at completion, and the one checksum byte that validates. -/

namespace Sys2Proof.Machine

/-! ### The sum that COMPLETE reports (R106, R133) -/

@[simp] theorem complete_out_acc (n1 : Count) (s : State) : (complete n1 s).out.acc = s.csum := by
  simp [complete_eq]

@[simp] theorem complete_phase (n1 : Count) (s : State) : (complete n1 s).phase = .idle := by
  simp [complete_eq]

/-! ### What becomes of the sum (R130) -/

/-- What a BYTE `b` in state `s` leaves of the sum in the next state `t`: it starts a sum, keeps it, reports and resets it
at a failed pre-check, reports it at completion, or ends a condemned frame with it. -/
inductive ByteSums (s : State) (b : Byte) (t : State) : Prop where
  | first (hp : s.phase = .idle) (hsum : t.csum = b) (hev : t.out.ev = .continuing)
  | kept (hp : s.phase ≠ .idle) (hsum : t.csum = s.csum + b) (hev : t.out.ev = .continuing ∨ t.out.ev = .overflow)
  | mismatch (hp : s.phase ≠ .idle) (hne : s.csum + b ≠ 0) (hsum : t.csum = 0) (hacc : t.out.acc = s.csum + b)
      (hev : t.out.ev = .badCrc)
  | completion (hp : s.phase = .acc) (hlast : s.cnt.toNat + 1 = 7 + s.len.toNat)
      (ht : t = complete (s.cnt + 1) (completed b s))
  | dropped (hp : s.phase ≠ .idle) (hidle : t.phase = .idle) (hev : t.out.ev = .overflow ∨ t.out.ev = .skipEnd)

/-- Every path of a BYTE, by what becomes of the sum. -/
theorem byteStep_sums (b : Byte) {s : State} (hr : s.phase ≠ .reserved) : ByteSums s b (byteStep b s) := by
  rcases byteStep_cases b s hr with
    hp | ⟨hp, hn, hpre | ⟨h5, hend, h4⟩ | ⟨hpre, hend⟩⟩ | ⟨hp, hn⟩ | hp
  · rw [byteStep_idle b hp]
    exact .first hp rfl rfl
  · have hbusy : s.phase ≠ .idle := by simp [hp]
    by_cases hsum : s.csum + b = 0
    · rw [byteStep_acc_pass b hp hn hpre hsum]
      exact .kept hbusy hsum.symm (.inl rfl)
    · rw [byteStep_acc_fail b hp hn hpre hsum]
      exact .mismatch hbusy hsum rfl rfl rfl
  · exact .completion hp (next_eq_frameCount.1 hend) (byteStep_acc_complete b hp hn ⟨h5, hend⟩ h4)
  · rw [byteStep_acc_mid b hp hn hpre hend]
    exact .kept (by simp [hp]) rfl (.inl rfl)
  · have hbusy : s.phase ≠ .idle := by simp [hp]
    rw [byteStep_overflow b hp hn]
    split
    · exact .dropped hbusy rfl (.inl rfl)
    · exact .kept hbusy rfl (.inr rfl)
  · have hbusy : s.phase ≠ .idle := by simp [hp]
    by_cases hlast : s.cnt + 1 = frameCount s.len
    · rw [byteStep_skip_end b hp hlast]
      exact .dropped hbusy rfl (.inr rfl)
    · rw [byteStep_skip_mid b hp hlast]
      exact .kept hbusy rfl (.inl rfl)

/-- Only a frame's last byte, found in ACC, raises FRAME_COMPLETE (R106). -/
theorem ByteSums.of_frameComplete {s t : State} {b : Byte} (h : ByteSums s b t) (hev : t.out.ev = .frameComplete) :
    s.phase = .acc ∧ s.cnt.toNat + 1 = 7 + s.len.toNat ∧ t = complete (s.cnt + 1) (completed b s) := by
  cases h with
  | completion hp hlast ht => exact ⟨hp, hlast, ht⟩
  | _ => simp_all

/-! ### Reaching the pre-check -/

/-- At byte count `6 + LEN` the pre-check runs; the byte is past the length byte, so `LEN` is as it was. -/
theorem precheck_reached {s : State} (b : Byte) (h : s.cnt.toNat + 1 = 6 + s.len.toNat) :
    latched s.cnt b s.len = s.len ∧
    5 ≤ s.cnt + 1 ∧ s.cnt + 1 = precheckCount (latched s.cnt b s.len) := by
  have hlen : latched s.cnt b s.len = s.len := if_neg fun h4 => by rw [count_eq_four] at h4; omega
  have hcnt := next_eq_precheckCount.2 h
  rw [hlen]
  refine ⟨rfl, ?_, hcnt⟩
  rw [five_le_count, eq_precheckCount.1 hcnt]
  omega

/-! ### Sums and verdicts in numbers (R131, R136) -/

theorem validate_ok_iff {v : Byte} : validate v = .ok ↔ v = 0 := by
  simp [validate]

theorem validate_mismatch_iff {v : Byte} : validate v = .mismatch ↔ v ≠ 0 := by
  simp [validate]

/-- The 8-bit sum of bytes is their sum modulo 256. -/
theorem toNat_sum_bytes (bs : List Byte) : bs.sum.toNat = (bs.map BitVec.toNat).sum % 256 := by
  induction bs with
  | nil => rfl
  | cons x xs ih => simp [BitVec.toNat_add, ih]

/-- The checksum byte is the negative of the sum of the bytes before it. -/
theorem ofNat_checksumFor (bs : List Byte) : BitVec.ofNat 8 (checksumFor (bs.map BitVec.toNat)) = -bs.sum := by
  apply BitVec.eq_of_toNat_eq
  simp [checksumFor, toNat_sum_bytes]

/-! ### The statements -/

/-- Settles O11: the two paths of a BYTE that reaches the pre-check, told apart by the sum. -/
theorem precheckAtSixPlusL : Obligations.PrecheckAtSixPlusL := by
  intro s b hrun hacc hroom hcnt
  obtain ⟨hlen, hpre⟩ := precheck_reached b hcnt
  have hn1 : (s.cnt + 1).toNat = 6 + s.len.toNat := (count_succ hroom).trans hcnt
  rw [exec_byte_running b hrun]
  split
  · next hsum => rw [byteStep_acc_pass b hacc hroom hpre hsum, hlen]
  · next hsum => rw [byteStep_acc_fail b hacc hroom hpre hsum, hlen, ← BitVec.ofNat_toNat, hn1]

/-- Settles O17, by what becomes of the sum on each path of a BYTE. -/
theorem everyByteIsSummed : Obligations.EveryByteIsSummed := by
  intro s t b hexec
  obtain ⟨⟨-, -, hphase⟩, rfl⟩ := execByte_next.1 hexec
  cases byteStep_sums b hphase with
  | first hp hsum hev => simp [hp, hsum, hev]
  | kept hp hsum hev => rcases hev with hev | hev <;> simp [hp, hsum, hev]
  | mismatch hp hne hsum hacc hev => simpa [hp, hsum, hacc, hev] using hne
  | completion hp hlast ht => simp [hp, ht, completed]
  | dropped hp hidle hev => rcases hev with hev | hev <;> simp [hp, hidle, hev]

/-- Settles O18: when the pre-check has passed `CSUM` is 0 (R132), and the trailer is the one byte added since. -/
theorem completionSumIsTheTrailer : Obligations.CompletionSumIsTheTrailer := by
  rintro s t b ⟨hwf, -, hinv⟩ hexec hev
  obtain ⟨⟨-, hbooted, hphase⟩, rfl⟩ := execByte_next.1 hexec
  obtain ⟨hacc, hlast, ht⟩ := (byteStep_sums b hphase).of_frameComplete hev
  have hcnt : s.cnt.toNat = 6 + s.len.toNat := by omega
  have haccInv : s.AccInv := by simpa only [State.PhaseInv, hacc] using hinv hbooted
  obtain ⟨-, -, -, -, -, -, -, hpassed⟩ := haccInv
  rw [ht]
  constructor
  · simp [completed, hpassed hcnt]
  · simp [completed, Memory.read_write _ _ _ _ hwf, hcnt]

/-- Settles O50: the sum is zero for the negative of the bytes' sum alone, and `delta` is what a perturbation adds. -/
theorem checksumByteIsUnique : Obligations.ChecksumByteIsUnique := by
  intro bs c delta
  rw [validate_ok_iff, ofNat_checksumFor, eq_neg_iff_add_eq_zero, add_comm c]
  refine ⟨Iff.rfl, fun hgood hdelta => ?_⟩
  have hsum : bs.sum + (c + delta) = delta := by rw [← add_assoc, hgood, zero_add]
  exact ⟨validate_mismatch_iff.2 (hsum.trans_ne hdelta), hsum⟩

end Sys2Proof.Machine

/-! PROOF of O34 and O37 (42_matcher.md): the entry predicate in the spec's own form, and the step that completes a frame
no entry describes. -/

namespace Sys2Proof.Machine

/-! ### The entry predicate (R141, R142) -/

/-- The scan of a pattern from frame index `j` on, as a statement about each of its positions. -/
theorem patMatches_iff {m : Memory} {n : Nat} (j : Nat) (pat : List (Byte × Byte)) :
    patMatches m n j pat = true ↔
      ∀ (i : Nat) (h : i < pat.length), j + i < n ∧ m.read (j + i) &&& (pat[i]).1 = (pat[i]).2 := by
  induction pat generalizing j with
  | nil => simp [patMatches]
  | cons pos rest ih =>
    obtain ⟨mask, exp⟩ := pos
    have hshift : ∀ i, j + 1 + i = j + (i + 1) := by omega
    simp only [patMatches, Bool.and_eq_true, decide_eq_true_eq, beq_iff_eq, ih, hshift]
    constructor
    · rintro ⟨hhead, htail⟩ (_ | i) hi
      · exact hhead
      · exact htail i (Nat.lt_of_succ_lt_succ hi)
    · intro hall
      exact ⟨hall 0 (Nat.succ_pos _), fun i hi => hall (i + 1) (Nat.succ_lt_succ hi)⟩

theorem entryMatches_iff {m : Memory} {n : Nat} {e : Entry} : entryMatches m n e = true ↔ EntryDescribes m n e :=
  patMatches_iff Config.patternBase e.pat

/-- A masked byte has zeros where its mask has (R146). -/
theorem masked_and_not_mask (x mask : Byte) : x &&& mask &&& ~~~mask = 0 := by
  rw [BitVec.and_assoc, BitVec.and_not_self]
  exact BitVec.and_zero

/-! ### A frame that no entry describes (R144) -/

theorem firstMatch_eq_none_iff {m : Memory} {n : Nat} (j : Nat) (t : List Entry) :
    firstMatch m n j t = none ↔ ∀ e ∈ t, ¬ EntryDescribes m n e := by
  induction t generalizing j with
  | nil => simp [firstMatch]
  | cons e rest ih =>
    rw [firstMatch, List.forall_mem_cons, ← entryMatches_iff, ← ih (j + 1)]
    split
    · next hmatch => simp [hmatch]
    · next hmiss => simp [hmiss]

theorem matchFrame_unmatched {n : Nat} {s : State} (h : ∀ e ∈ s.table, ¬ EntryDescribes s.buf n e) :
    matchFrame n s = unrecognized s := by
  rw [matchFrame, (firstMatch_eq_none_iff 0 s.table).2 h]

/-- The byte of byte count `7 + LEN`, found in ACC with room, runs COMPLETE (R106). -/
theorem byteStep_completes {s : State} (b : Byte) (hacc : s.phase = .acc) (hroom : s.cnt.toNat < Config.bufCap)
    (hlast : s.cnt.toNat + 1 = 7 + s.len.toNat) :
    byteStep b s = complete (s.cnt + 1) (completed b s) := by
  have hpast : 5 ≤ s.cnt + 1 := by rw [five_le_count, count_succ hroom]; omega
  have hnot4 : s.cnt ≠ 4 := fun h4 => by rw [count_eq_four] at h4; omega
  exact byteStep_acc_complete b hacc hroom ⟨hpast, next_eq_frameCount.2 hlast⟩ hnot4

/-! ### The statements -/

/-- Settles O34: the scan checks each position; what R146 excludes is a masked byte with a bit outside its mask. -/
theorem entryPredicateIsTheSpecs : Obligations.EntryPredicateIsTheSpecs := by
  intro m n e
  refine ⟨entryMatches_iff, fun hempty => ?_, ?_⟩
  · exact entryMatches_iff.2 fun i hi => by simp [hempty] at hi
  · rintro ⟨i, hi, houtside⟩
    rw [← Bool.not_eq_true, entryMatches_iff]
    intro hdescribes
    obtain ⟨-, hexp⟩ := hdescribes i hi
    exact houtside (hexp ▸ masked_and_not_mask _ _)

/-- Settles O37: COMPLETE's match on the stored frame finds no entry. -/
theorem unmatchedFrameIsUnrecognized : Obligations.UnmatchedFrameIsUnrecognized := by
  intro s b hrun hacc hroom hlast hnone
  have hn1 : (s.cnt + 1).toNat = 7 + s.len.toNat := (count_succ hroom).trans hlast
  refine ⟨_, exec_byte_running b hrun, ?_⟩
  rw [byteStep_completes b hacc hroom hlast, complete_eq, hn1, matchFrame_unmatched hnone]
  exact ⟨rfl, rfl, rfl, rfl, rfl, rfl⟩

end Sys2Proof.Machine

/-! PROOF of O23 to O32 (43_field_extractor.md): the decoder a select word selects, what each of the eight decoders writes
inside and outside the payload, the ranges of the temperatures, and the two mode code spaces. -/

namespace Sys2Proof

/-! ### The decoder a select word selects (R85) -/

theorem offsetWf_of_le {p : Offset} (hp : p.toNat ≤ 19) : offsetWf p = true := offsetWf_iff.2 (Nat.lt_succ_of_le hp)

@[simp] theorem FSel.ofCode_code (fs : FSel) : FSel.ofCode fs.code = fs := by
  cases fs <;> rfl

theorem FSel.instr_wf (fs : FSel) {p : Offset} (hp : offsetWf p = true) : (fs.instr p).wf = true := by
  cases fs with
  | fNone | fOk => rfl
  | _ => exact hp

theorem decode_sel {fs : FSel} {p : Offset} (h : (fs.instr p).wf = true) :
    decode (.sel ⟨fs.code, p⟩) = .ok (fs.instr p) := by
  simp [decode, decodeSel, h]

end Sys2Proof

namespace Sys2Proof.Machine

/-! ### What a decoder writes (R150 to R152) -/

/-- The record of a step that decodes the fields `f` with decoder `fs`. -/
def fieldRecord (fs : FSel) (f : FieldOut) : OutRecord :=
  { OutRecord.zero with fSel := fs, fCode := f.code, fRaw := f.raw, c10 := f.c10, f10 := f.f10 }

theorem exec_field {s : State} (fs : FSel) {p : Offset} (hrun : s.Running) (hout : s.out = OutRecord.zero)
    (hp : p.toNat ≤ 19) :
    exec (fs.instr p) s = .next { s with out := fieldRecord fs (fieldOut fs p.toNat s) } := by
  rw [exec_field_running fs p hrun (offsetWf_of_le hp), runField, hout]
  rfl

theorem fieldOutside_iff {w p : Nat} {len : Byte} : fieldOutside w p len = true ↔ 0 < w ∧ len.toNat < p + w := by
  simp [fieldOutside]

theorem fieldOut_inside {fs : FSel} {p : Nat} {s : State} (h : p + fieldWidth fs ≤ s.len.toNat) :
    fieldOut fs p s = decodeField fs p s := by
  refine if_neg fun houtside => ?_
  obtain ⟨-, hshort⟩ := fieldOutside_iff.1 houtside
  omega

theorem fieldOut_outside {fs : FSel} {p : Nat} {s : State} (hw : 0 < fieldWidth fs)
    (h : s.len.toNat < p + fieldWidth fs) : fieldOut fs p s = FieldOut.ofCode .fieldOor 0 :=
  if_pos (fieldOutside_iff.2 ⟨hw, h⟩)

theorem exec_field_inside {s : State} (fs : FSel) {p : Offset} (hrun : s.Running) (hout : s.out = OutRecord.zero)
    (hp : p.toNat ≤ 19) (hin : p.toNat + fieldWidth fs ≤ s.len.toNat) :
    exec (fs.instr p) s = .next { s with out := fieldRecord fs (decodeField fs p.toNat s) } := by
  rw [exec_field fs hrun hout hp, fieldOut_inside hin]

theorem exec_field_no_width {s : State} (fs : FSel) (hrun : s.Running) (hout : s.out = OutRecord.zero)
    (hw : fieldWidth fs = 0) :
    exec (fs.instr 0) s = .next { s with out := fieldRecord fs (decodeField fs 0 s) } :=
  exec_field_inside fs hrun hout (by decide) (by simp [hw])

/-- The five decoders of one byte are one: each writes a code of the byte `x`, and `x`. -/
theorem oneByteField_decodes {s : State} {p : Offset} {x : Byte} (fs : FSel) (code : Byte → FieldCode)
    (hw : fieldWidth fs = 1)
    (hcode : ∀ q t, decodeField fs q t = FieldOut.ofCode (code (payloadByte t q)) (payloadByte t q))
    (hrun : s.Running) (hout : s.out = OutRecord.zero) (hp : p.toNat ≤ 19) (hin : p.toNat + 1 ≤ s.len.toNat)
    (hx : x = s.buf.read (5 + p.toNat)) :
    decode (.sel ⟨fs.code, p⟩) = .ok (fs.instr p) ∧
    exec (fs.instr p) s = .next
      { s with out := { OutRecord.zero with fSel := fs, fCode := code x, fRaw := x } } := by
  have hbyte : payloadByte s p.toNat = x := hx.symm
  refine ⟨decode_sel (fs.instr_wf (offsetWf_of_le hp)), ?_⟩
  rw [exec_field_inside fs hrun hout hp (hw ▸ hin), hcode, hbyte]
  rfl

/-! ### Temperatures in numbers (R160 to R162) -/

theorem celsiusTenths_eq (a t : Byte) :
    celsiusTenths a t = a.toNat * 100 + (t >>> 4).toNat * 10 + (t &&& 0xF).toNat := by
  have hlow : (t &&& 0xF).toNat = t.toNat % 16 := Nat.and_two_pow_sub_one_eq_mod t.toNat 4
  rw [celsiusTenths, hlow, BitVec.toNat_ushiftRight, Nat.shiftRight_eq_div_pow]

theorem celsiusTenths_le (a t : Byte) : celsiusTenths a t ≤ 25665 := by
  have ha := a.isLt
  have ht := t.isLt
  unfold celsiusTenths
  omega

theorem fahrenheitTenths_le {c : Nat} (h : c ≤ 25665) : fahrenheitTenths c ≤ 46517 := by
  unfold fahrenheitTenths
  omega

/-- The hundredths are even, so they never end in 5 and rounding stays below half a tenth. -/
theorem fahrenheitTenths_nearest (c : Nat) :
    (c * 18 + 3200) % 10 ≠ 5 ∧
    10 * fahrenheitTenths c < c * 18 + 3200 + 5 ∧ c * 18 + 3200 < 10 * fahrenheitTenths c + 5 := by
  unfold fahrenheitTenths
  omega

/-- F_TEMP's two 16-bit outputs hold the tenths whole. -/
theorem decodeTemp_toNat (p : Nat) (s : State) :
    (decodeTemp p s).c10.toNat = celsiusTenths (payloadByte s p) (payloadByte s (p + 1)) ∧
    (decodeTemp p s).f10.toNat = fahrenheitTenths (decodeTemp p s).c10.toNat := by
  have hc := celsiusTenths_le (payloadByte s p) (payloadByte s (p + 1))
  have hf := fahrenheitTenths_le hc
  have hc10 : (decodeTemp p s).c10.toNat = celsiusTenths (payloadByte s p) (payloadByte s (p + 1)) :=
    Nat.mod_eq_of_lt (by omega)
  refine ⟨hc10, ?_⟩
  rw [hc10]
  exact Nat.mod_eq_of_lt (by omega)

/-! ### The two mode code spaces (R156, R157) -/

theorem modeSetCode_known_iff {x : Byte} : modeSetCode x ≠ .unknown ↔ x = 7 ∨ x = 8 ∨ x = 32 := by
  unfold modeSetCode
  split_ifs <;> simp_all

theorem modeGetCode_known_iff {x : Byte} : modeGetCode x ≠ .unknown ↔ x = 7 ∨ x = 8 ∨ x = 0x0D := by
  unfold modeGetCode
  split_ifs <;> simp_all

/-! ### The statements -/

/-- Settles O23: a decoder of width 0 takes no offset and always runs. -/
theorem noneAndOkReadNoByte : Obligations.NoneAndOkReadNoByte := by
  intro s p hrun hout
  exact ⟨decode_sel (fs := .fNone) rfl, decode_sel (fs := .fOk) rfl,
    exec_field_no_width .fNone hrun hout rfl, exec_field_no_width .fOk hrun hout rfl⟩

/-- Settles O24: F_POWER is the one-byte decoder of `powerCode`. -/
theorem powerFieldDecodes : Obligations.PowerFieldDecodes := by
  intro s p x
  exact oneByteField_decodes .fPower powerCode rfl fun _ _ => rfl

/-- Settles O25: F_MODE_SET is the one-byte decoder of `modeSetCode`. -/
theorem modeSetFieldDecodes : Obligations.ModeSetFieldDecodes := by
  intro s p x
  exact oneByteField_decodes .fModeSet modeSetCode rfl fun _ _ => rfl

/-- Settles O26: F_MODE_GET is the one-byte decoder of `modeGetCode`. -/
theorem modeGetFieldDecodes : Obligations.ModeGetFieldDecodes := by
  intro s p x
  exact oneByteField_decodes .fModeGet modeGetCode rfl fun _ _ => rfl

/-- Settles O27: F_FAN is the one-byte decoder of `fanCode`. -/
theorem fanFieldDecodes : Obligations.FanFieldDecodes := by
  intro s p x
  exact oneByteField_decodes .fFan fanCode rfl fun _ _ => rfl

/-- Settles O28: F_STATUS is the one-byte decoder of `statusCode`. -/
theorem statusFieldDecodes : Obligations.StatusFieldDecodes := by
  intro s p x
  exact oneByteField_decodes .fStatus statusCode rfl fun _ _ => rfl

/-- Settles O29: what F_TEMP decodes from its two bytes, whose tenths are within 16 bits. -/
theorem temperatureFieldDecodes : Obligations.TemperatureFieldDecodes := by
  intro s p a x hrun hout hp hin ha hx
  have hfirst : payloadByte s p.toNat = a := ha.symm
  have hnext : payloadByte s (p.toNat + 1) = x := by
    rw [hx, payloadByte, Config.payloadBase]
    congr 1
    omega
  obtain ⟨hc10, hf10⟩ := decodeTemp_toNat p.toNat s
  rw [hfirst, hnext, celsiusTenths_eq] at hc10
  refine ⟨decode_sel (FSel.instr_wf .fTemp (offsetWf_of_le hp)),
    _, exec_field_inside .fTemp hrun hout hp hin, ?_, hc10, hf10⟩
  rw [← hfirst]
  rfl

/-- Settles O30: the decoder does not run, and FIELD_OOR is all that is decoded. -/
theorem fieldOutsideThePayload : Obligations.FieldOutsideThePayload := by
  intro s p fs hrun hout hp hw hshort
  rw [exec_field fs hrun hout hp, fieldOut_outside hw hshort]
  rfl

/-- Settles O31: the greatest Celsius value bounds both scales. -/
theorem temperatureRangesAndRounding : Obligations.TemperatureRangesAndRounding := by
  intro a x
  have hc := celsiusTenths_le a x
  exact ⟨hc, fahrenheitTenths_le hc, fahrenheitTenths_nearest _⟩

/-- Settles O32: the bytes each mode decoder knows, and 32 is not 0x0D. -/
theorem modeCodeSpacesStayApart : Obligations.ModeCodeSpacesStayApart := by
  refine ⟨fun x => ?_, rfl, rfl, rfl, rfl, rfl, rfl⟩
  rw [modeSetCode_known_iff, modeGetCode_known_iff]
  constructor
  · rintro ⟨h7 | h8 | h32, hget⟩
    · exact .inl h7
    · exact .inr h8
    · simp [h32] at hget
  · rintro (h7 | h8)
    · simp [h7]
    · simp [h8]

end Sys2Proof.Machine

/-! PROOF of O38 and O39 (44_address_filter.md): a BYTE under another filter takes the same path, and only the filter
registers and the filter bit of its step differ. -/

namespace Sys2Proof.Machine

/-! ### The filter bit (R181, R182) -/

/-- The events of the steps that output a frame, and with it the filter bit (R106, R132, R182). -/
def reportsFrame : Event → Bool
  | .frameComplete | .badCrc => true
  | _ => false

theorem reportsFrame_iff {e : Event} : reportsFrame e = true ↔ e = .frameComplete ∨ e = .badCrc := by
  cases e <;> simp [reportsFrame]

/-- The block with `en` and `addr` in its filter registers (R30). -/
def setFilter (en : Bool) (addr : Byte) (s : State) : State := { s with filtEn := en, filtAddr := addr }

/-- The state `t` after a BYTE, as it would be under the filter `en`, `addr`: a frame that is reported is compared with
that filter. -/
def refilter (en : Bool) (addr : Byte) (t : State) : State :=
  { setFilter en addr t with
      out := { t.out with pass := reportsFrame t.out.ev && filterPass (setFilter en addr t) } }

theorem filterPass_setFilter_iff {en : Bool} {addr : Byte} {t : State} :
    filterPass (setFilter en addr t) = true ↔ en = false ∨ t.buf.read 1 = addr ∨ t.buf.read 2 = addr := by
  cases en with
  | false => simp [filterPass, setFilter]
  | true => simp [filterPass, setFilter, comparand1, comparand2]

theorem refilter_pass_iff {en : Bool} {addr : Byte} {t : State} :
    (refilter en addr t).out.pass = true ↔
      (t.out.ev = .frameComplete ∨ t.out.ev = .badCrc) ∧
      (en = false ∨ t.buf.read 1 = addr ∨ t.buf.read 2 = addr) := by
  rw [← reportsFrame_iff, ← filterPass_setFilter_iff, ← Bool.and_eq_true]
  rfl

/-! ### A BYTE under another filter (R183) -/

/-- MATCH reads neither the filter registers nor the filter bit: it may as well run before the filter. -/
theorem matchFrame_outputPass_setFilter (n : Nat) (en : Bool) (addr : Byte) (s : State) :
    matchFrame n (outputPass (setFilter en addr s)) =
      outputPass (setFilter en addr (matchFrame n (outputPass s))) := by
  cases h : firstMatch s.buf n 0 s.table with
  | none | some _ => simp only [matchFrame, outputPass_buf, outputPass_table, setFilter, h]; rfl

theorem completeReport_setFilter (n1 : Count) (en : Bool) (addr : Byte) (s : State) :
    completeReport n1 (setFilter en addr s) = outputPass (setFilter en addr (completeReport n1 s)) :=
  matchFrame_outputPass_setFilter n1.toNat en addr (outputFrame n1 (attachSum (raise .frameComplete s)))

theorem complete_setFilter (n1 : Count) (en : Bool) (addr : Byte) (s : State) :
    complete n1 (setFilter en addr s) = refilter en addr (complete n1 s) := by
  rw [refilter, complete_out_ev, complete, completeReport_setFilter]
  rfl

/-- No path of a BYTE is chosen by the filter, and only the two that report a frame look at it. -/
theorem byteStep_setFilter (b : Byte) (en : Bool) (addr : Byte) {s : State} (hr : s.phase ≠ .reserved) :
    byteStep b (setFilter en addr s) = refilter en addr (byteStep b s) := by
  rcases byteStep_cases b s hr with
    hp | ⟨hp, hn, hpre | ⟨h5, hend, h4⟩ | ⟨hpre, hend⟩⟩ | ⟨hp, hn⟩ | hp
  · rw [byteStep_idle b hp]
    exact byteStep_idle b hp
  · by_cases hsum : s.csum + b = 0
    · rw [byteStep_acc_pass b hp hn hpre hsum]
      exact byteStep_acc_pass b hp hn hpre hsum
    · rw [byteStep_acc_fail b hp hn hpre hsum]
      exact byteStep_acc_fail b hp hn hpre hsum
  · rw [byteStep_acc_complete b hp hn ⟨h5, hend⟩ h4, ← complete_setFilter]
    exact byteStep_acc_complete b hp hn ⟨h5, hend⟩ h4
  · rw [byteStep_acc_mid b hp hn hpre hend]
    exact byteStep_acc_mid b hp hn hpre hend
  · rw [byteStep_overflow b hp hn, apply_ite (refilter en addr)]
    exact byteStep_overflow b hp hn
  · by_cases hlast : s.cnt + 1 = frameCount s.len
    · rw [byteStep_skip_end b hp hlast]
      exact byteStep_skip_end b hp hlast
    · rw [byteStep_skip_mid b hp hlast]
      exact byteStep_skip_mid b hp hlast

/-- A step is its own step under the filter the block has. -/
theorem byteStep_pass_iff (b : Byte) {s : State} (hr : s.phase ≠ .reserved) :
    (byteStep b s).out.pass = true ↔
      ((byteStep b s).out.ev = .frameComplete ∨ (byteStep b s).out.ev = .badCrc) ∧
      (s.filtEn = false ∨ (byteStep b s).buf.read 1 = s.filtAddr ∨ (byteStep b s).buf.read 2 = s.filtAddr) := by
  have hown : setFilter s.filtEn s.filtAddr s = s := rfl
  rw [← refilter_pass_iff, ← byteStep_setFilter b _ _ hr, hown]

/-! ### The statements -/

/-- Settles O38: the filter bit is 1 exactly when the step reports a frame and the frame passes. -/
theorem filterComparesBytesOneAndTwo : Obligations.FilterComparesBytesOneAndTwo := by
  intro s t b hexec
  obtain ⟨⟨-, -, hphase⟩, rfl⟩ := execByte_next.1 hexec
  have hpass := byteStep_pass_iff b hphase
  constructor
  · intro hreport
    exact hpass.trans (and_iff_right hreport)
  · intro hcomplete hbad
    rw [← Bool.not_eq_true, hpass]
    rintro ⟨hev | hev, -⟩
    · exact hcomplete hev
    · exact hbad hev

/-- Settles O39: the step under the other filter is the same step, refiltered. -/
theorem filterChangesNothingElse : Obligations.FilterChangesNothingElse := by
  intro s b en addr hrun
  have ⟨_, _, hphase⟩ := hrun
  refine ⟨_, _, exec_byte_running b hrun, exec_byte_running (s := setFilter en addr s) b hrun, ?_⟩
  rw [byteStep_setFilter b en addr hphase]
  rfl

end Sys2Proof.Machine

/-! PROOF of O5 (70_reset_and_hazards.md R220): before the first RESET nothing else has a meaning, and there is no status
word to read. -/

namespace Sys2Proof.Machine

variable {s : State}

/-- A guarded instruction is refused before the first RESET, whatever it would do in a running block. -/
theorem whenRunning_not_booted (k : State → Host.Outcome State Fault Refusal) (htable : tableWf s.table = true)
    (hboot : s.booted = false) : whenRunning s k = .refused .beforeFirstReset := by
  rw [whenRunning, whenBuilt_ok _ htable, if_pos hboot]

theorem stat0_not_booted (hboot : s.booted = false) : stat0 s = none := by
  simp [stat0, hboot]

theorem stat1_not_booted (hboot : s.booted = false) : stat1 s = none := by
  simp [stat1, hboot]

/-- Settles O5: NOP, BYTE and TIMEOUT are guarded alike, and both status words are read only after a RESET. -/
theorem refusedBeforeFirstReset : Obligations.RefusedBeforeFirstReset := by
  intro s b htable hboot
  refine ⟨?_, ?_, ?_, stat0_not_booted hboot, stat1_not_booted hboot⟩
  · rw [exec, execNop, whenRunning_not_booted _ htable hboot]
  · rw [exec, execByte, whenRunning_not_booted _ htable hboot]
  · rw [exec, execTimeout, whenRunning_not_booted _ htable hboot]

end Sys2Proof.Machine

/-! PROOF of O46, O45, O48, O33 and O60 (30_encoding.md): unpacking a packed row gives the entry back, decoding an encoded
instruction gives the instruction back, and the tables of codes are those written. -/

namespace Sys2Proof

/-! ### Handler kind codes (R84) -/

@[simp] theorem HandlerKind.ofCode_code (hk : HandlerKind) : HandlerKind.ofCode hk.code = some hk := by
  cases hk <;> rfl

theorem HandlerKind.code_mem_range (hk : HandlerKind) : 1 ≤ hk.code.toNat ∧ hk.code.toNat ≤ 18 :=
  HandlerKind.exists_ofCode_iff.1 ⟨hk, hk.ofCode_code⟩

theorem HandlerKind.code_injective : Function.Injective HandlerKind.code := by
  intro hk hk' h
  simpa using congrArg HandlerKind.ofCode h

/-! ### Base-256 digits -/

theorem packBytes_lt (bs : List Byte) : packBytes bs < 2 ^ (8 * bs.length) := by
  induction bs with
  | nil => exact Nat.one_pos
  | cons b bs ih =>
    have hb := b.isLt
    rw [packBytes, List.length_cons, Nat.mul_succ, Nat.pow_add]
    omega

/-- Digit `i` of the packed number is byte `i`. -/
theorem packBytes_digit (bs : List Byte) (i : Nat) (hi : i < bs.length) :
    packBytes bs / 2 ^ (8 * i) % 2 ^ 8 = bs[i].toNat := by
  induction bs generalizing i with
  | nil => exact absurd hi (Nat.not_lt_zero i)
  | cons b bs ih =>
    have hb := b.isLt
    cases i with
    | zero => simp only [packBytes, List.getElem_cons_zero]; omega
    | succ i =>
      have hrest : (b.toNat + 2 ^ 8 * packBytes bs) / 2 ^ 8 = packBytes bs := by omega
      rw [packBytes, Nat.mul_succ, Nat.add_comm (8 * i), Nat.pow_add, ← Nat.div_div_eq_div_mul, hrest,
        ih i (Nat.lt_of_succ_lt_succ hi), List.getElem_cons_succ]

/-- What stands above bit `n` does not reach the byte at bit `i`. -/
theorem byteAt_add_high {i n : Nat} (h : i + 8 ≤ n) (a c : Nat) :
    (a + 2 ^ n * c) / 2 ^ i % 2 ^ 8 = a / 2 ^ i % 2 ^ 8 := by
  obtain ⟨d, rfl⟩ := Nat.exists_eq_add_of_le h
  rw [Nat.pow_add, Nat.pow_add, Nat.mul_assoc, Nat.mul_assoc, Nat.add_mul_div_left _ _ (Nat.two_pow_pos i),
    Nat.add_mul_mod_self_left]

/-! ### A packed row (R81) -/

/-- A sequence of a legal pattern's length fits the 184 bits of its field. -/
theorem packBytes_lt_field {bs : List Byte} (h : bs.length ≤ 23) : packBytes bs < 2 ^ 184 :=
  (packBytes_lt bs).trans_le (Nat.pow_le_pow_right Nat.two_pos (by omega))

section
variable {e : Entry} (h : e.wf = true)
include h

/-- No field of a well-formed entry's row runs into the next, and nothing is cut off at bit 383. -/
theorem packEntry_toNat :
    (packEntry e).toNat =
      e.pat.length + 2 ^ 5 * e.hk.code.toNat + 2 ^ 10 * e.p.toNat
        + 2 ^ 15 * (packBytes (e.pat.map Prod.fst) + 2 ^ 184 * packBytes (e.pat.map Prod.snd)) := by
  obtain ⟨hk, -⟩ := entry_wf_iff.1 h
  have hhk := e.hk.code.isLt
  have hp := e.p.isLt
  have hmask : packBytes (e.pat.map Prod.fst) < 2 ^ 184 := packBytes_lt_field (by simpa using hk)
  have hexp : packBytes (e.pat.map Prod.snd) < 2 ^ 184 := packBytes_lt_field (by simpa using hk)
  rw [packEntry, BitVec.toNat_ofNat, Entry.k, Nat.mod_eq_of_lt (by omega)]
  omega

theorem packEntry_fields :
    (packEntry e).toNat % 32 = e.pat.length ∧ (packEntry e).toNat / 32 % 32 = e.hk.code.toNat ∧
    (packEntry e).toNat / 1024 % 32 = e.p.toNat := by
  obtain ⟨hk, -⟩ := entry_wf_iff.1 h
  have hhk := e.hk.code.isLt
  have hp := e.p.isLt
  rw [packEntry_toNat h]
  omega

/-- Byte `i` of the mask and of the expected sequence, at their bits of the row. -/
theorem packEntry_pattern (i : Nat) (hi : i < e.pat.length) :
    (packEntry e).toNat / 2 ^ (15 + 8 * i) % 256 = (e.pat[i]).1.toNat ∧
    (packEntry e).toNat / 2 ^ (199 + 8 * i) % 256 = (e.pat[i]).2.toNat := by
  obtain ⟨hk, hp⟩ := entry_wf_iff.1 h
  have hhk := e.hk.code.isLt
  have hmask : packBytes (e.pat.map Prod.fst) < 2 ^ 184 := packBytes_lt_field (by simpa using hk)
  have hpatterns : (packEntry e).toNat / 2 ^ 15 =
      packBytes (e.pat.map Prod.fst) + 2 ^ 184 * packBytes (e.pat.map Prod.snd) := by
    rw [packEntry_toNat h]
    omega
  have hexps : (packEntry e).toNat / 2 ^ 199 = packBytes (e.pat.map Prod.snd) := by
    rw [packEntry_toNat h]
    omega
  constructor
  · rw [Nat.pow_add, ← Nat.div_div_eq_div_mul, hpatterns]
    refine (byteAt_add_high (by omega) _ _).trans ?_
    rw [packBytes_digit _ i (by simpa using hi), List.getElem_map]
  · rw [Nat.pow_add, ← Nat.div_div_eq_div_mul, hexps]
    refine (packBytes_digit _ i (by simpa using hi)).trans ?_
    rw [List.getElem_map]

/-- The row of a well-formed entry is one of those given a meaning (R83). -/
theorem exists_unpackEntry_packEntry : ∃ e', unpackEntry (packEntry e) = .ok e' := by
  obtain ⟨hlen, hp⟩ := entry_wf_iff.1 h
  obtain ⟨hhk1, hhk18⟩ := e.hk.code_mem_range
  obtain ⟨hlenField, hhkField, hpField⟩ := packEntry_fields h
  rw [exists_unpackEntry_iff_toNat]
  omega

end

/-- Settles O46: the packed row is accepted, and the entry it gives has every field of `e` at its bits. -/
theorem unpackInvertsPack : Obligations.UnpackInvertsPack := by
  intro e h
  obtain ⟨e', he'⟩ := exists_unpackEntry_packEntry h
  obtain ⟨hlen, hhk, hp, hpat⟩ := unpackEntry_fields he'
  obtain ⟨hlenField, hhkField, hpField⟩ := packEntry_fields h
  have hlen' : e'.pat.length = e.pat.length := hlen.trans hlenField
  have hpatEq : e'.pat = e.pat := by
    refine List.ext_getElem hlen' fun i hi' hi => ?_
    obtain ⟨hmask, hexp⟩ := hpat i hi'
    obtain ⟨hmaskField, hexpField⟩ := packEntry_pattern h i hi
    exact Prod.ext (BitVec.eq_of_toNat_eq (hmask.trans hmaskField)) (BitVec.eq_of_toNat_eq (hexp.trans hexpField))
  have hhkEq : e'.hk = e.hk := HandlerKind.code_injective (BitVec.eq_of_toNat_eq (hhk.trans hhkField))
  have hpEq : e'.p = e.p := BitVec.eq_of_toNat_eq (hp.trans hpField)
  rw [he']
  cases e; cases e'
  simp_all

/-! ### Instructions (R70, R85, R88) -/

/-- All four values of `OP` are defined (R70). -/
theorem opcode_cases (op : BitVec 2) : op = 0 ∨ op = 1 ∨ op = 2 ∨ op = 3 := by
  revert op
  decide

theorem decodeOp_byte {w : OpWord} (h : w.opw.extractLsb' 8 2 = 1) : decodeOp w = .byte (w.opw.extractLsb' 0 8) := by
  simp [decodeOp, h]

/-- An operation word's two fields are those it was put together from (R70). -/
theorem decode_opWord (op : BitVec 2) (data : Byte) (en : Bool) (addr : Byte) :
    ∃ w : OpWord, decode (opWord op data en addr) = .ok (decodeOp w) ∧
      w.opw.extractLsb' 8 2 = op ∧ w.opw.extractLsb' 0 8 = data ∧ w.cfgFiltEn = en ∧ w.cfgFiltAddr = addr :=
  ⟨⟨op ++ data, en, addr⟩, rfl, BitVec.extractLsb'_append_eq_left, BitVec.extractLsb'_append_eq_right, rfl, rfl⟩

/-- Settles O45: the operations by the two fields of their word, the decoders by their code and offset. -/
theorem decodeInvertsEncode : Obligations.DecodeInvertsEncode := by
  intro i hwf
  cases i with
  | nop =>
    obtain ⟨w, hdec, hop, -⟩ := decode_opWord 0 0 false 0
    rw [encode, hdec, decodeOp_nop hop]
  | byte b =>
    obtain ⟨w, hdec, hop, hdata, -⟩ := decode_opWord 1 b false 0
    rw [encode, hdec, decodeOp_byte hop, hdata]
  | timeout =>
    obtain ⟨w, hdec, hop, -⟩ := decode_opWord 2 0 false 0
    rw [encode, hdec, decodeOp_timeout hop]
  | reset en addr =>
    obtain ⟨w, hdec, hop, -, hen, haddr⟩ := decode_opWord 3 0 en addr
    rw [encode, hdec, decodeOp_reset hop, hen, haddr]
  | fNone => exact decode_sel (fs := .fNone) hwf
  | fOk => exact decode_sel (fs := .fOk) hwf
  | fPower p => exact decode_sel (fs := .fPower) hwf
  | fModeSet p => exact decode_sel (fs := .fModeSet) hwf
  | fModeGet p => exact decode_sel (fs := .fModeGet) hwf
  | fFan p => exact decode_sel (fs := .fFan) hwf
  | fStatus p => exact decode_sel (fs := .fStatus) hwf
  | fTemp p => exact decode_sel (fs := .fTemp) hwf

/-! ### The tables as written -/

/-- Settles O48: each word is decoded by evaluation. -/
theorem wordsDecodeAsWritten : Obligations.WordsDecodeAsWritten := by
  unfold Obligations.WordsDecodeAsWritten
  decide

/-- Settles O33: both columns of the table, by evaluation. -/
theorem selectTableAsWritten : Obligations.SelectTableAsWritten := by
  unfold Obligations.SelectTableAsWritten
  decide

/-- Settles O60: the four tables of codes, by evaluation. -/
theorem codesAsWritten : Obligations.CodesAsWritten := ⟨rfl, rfl, rfl, rfl⟩

end Sys2Proof

/-! PROOF of O4, O6, O7, O40, O41, O43, O44 and O49 (10_state.md section 4, 00_scope.md sections 4 and 5): the guards, the
two status words, and which instruction a step runs. -/

namespace Sys2Proof.Machine

/-! ### The guards -/

/-- Every instruction but RESET is guarded by the same check (R220). -/
theorem exec_guarded {i : Instr} (hi : ∀ en addr, i ≠ .reset en addr) (s : State) : ∃ k, exec i s = whenRunning s k := by
  cases i with
  | reset en addr => exact absurd rfl (hi en addr)
  | _ =>
    simp only [exec, execNop, execByte, execTimeout, execFNone, execFOk, execFPower, execFModeSet, execFModeGet,
      execFFan, execFStatus, execFTemp, execField]
    exact ⟨_, rfl⟩

theorem whenBuilt_unbuilt {s : State} (k : State → Host.Outcome State Fault Refusal) (h : tableWf s.table = false) :
    whenBuilt s k = .refused .illFormedTable := by
  simp [whenBuilt, h]

theorem whenRunning_reserved {s : State} (k : State → Host.Outcome State Fault Refusal) (htable : tableWf s.table = true)
    (hbooted : s.booted = true) (hphase : s.phase = .reserved) : whenRunning s k = .fault .reservedPhase := by
  rw [whenRunning, whenBuilt_ok _ htable, if_neg (by simp [hbooted]), if_pos hphase]

/-- Settles O7: the check of the phase comes before the instruction. -/
theorem reservedPhaseFaults : Obligations.ReservedPhaseFaults := by
  intro s i htable hbooted hphase hi
  obtain ⟨k, hk⟩ := exec_guarded hi s
  rw [hk, whenRunning_reserved k htable hbooted hphase]

/-- Settles O6: the bound on the handler kind holds by its type, and every instruction asks for the table first. -/
theorem illFormedTableHasNoMeaning : Obligations.IllFormedTableHasNoMeaning := by
  intro s
  constructor
  · have hentry : ∀ e : Entry, e.wf = true ↔
        e.pat.length ≤ 23 ∧ 1 ≤ e.hk.code.toNat ∧ e.hk.code.toNat ≤ 18 ∧ e.p.toNat ≤ 19 := fun e => by
      have hcode := e.hk.code_mem_range
      rw [entry_wf_iff]
      omega
    simp only [tableWf_iff, hentry]
  · intro hbad i
    by_cases hi : ∀ en addr, i ≠ .reset en addr
    · obtain ⟨k, hk⟩ := exec_guarded hi s
      rw [hk, whenRunning, whenBuilt_unbuilt _ hbad]
    · push Not at hi
      obtain ⟨en, addr, rfl⟩ := hi
      rw [exec, execReset, whenBuilt_unbuilt _ hbad]

/-! ### The status words (R33, R34) -/

theorem stat0_booted {s : State} (h : s.booted = true) : stat0 s = some (stat0Bits s) := if_pos h

theorem stat1_booted {s : State} (h : s.booted = true) : stat1 s = some (stat1Bits s) := if_pos h

/-- Settles O4: RESET sets every field that the two words show. -/
theorem statusWordsAfterReset : Obligations.StatusWordsAfterReset := by
  intro en addr s htable
  refine ⟨_, exec_reset_built en addr htable, ?_, stat1_booted rfl⟩
  rw [stat0_booted rfl, stat0Bits, resetStep_phase, resetStep_cnt, resetStep_csum, resetStep_ovf, resetStep_skipc]
  decide

/-- A flag stands just above the fields below it. -/
theorem getLsbD_flag {v w : Nat} (hi : BitVec v) (flag : Bool) (lo : BitVec w) :
    (hi ++ BitVec.ofBool flag ++ lo).getLsbD w = flag := by
  rw [BitVec.getLsbD_append, BitVec.getLsbD_append]
  simp

/-- Settles O43: each field is reached by passing over the fields below it. -/
theorem stat0Fields : Obligations.Stat0Fields := by
  intro s hbooted
  refine ⟨_, stat0_booted hbooted, ?_, ?_, ?_, ?_, ?_, ?_, ?_⟩
  · exact BitVec.extractLsb'_append_eq_right
  · exact getLsbD_flag _ s.ovf _
  · exact BitVec.getLsbD_append.trans (getLsbD_flag _ s.skipc _)
  · iterate 3 refine (BitVec.extractLsb'_append_eq_of_le (by decide)).trans ?_
    exact BitVec.extractLsb'_append_eq_right
  · iterate 4 refine (BitVec.extractLsb'_append_eq_of_le (by decide)).trans ?_
    exact BitVec.extractLsb'_append_eq_right
  · iterate 5 refine (BitVec.extractLsb'_append_eq_of_le (by decide)).trans ?_
    exact BitVec.extractLsb'_append_eq_right
  · iterate 6 refine (BitVec.extractLsb'_append_eq_of_le (by decide)).trans ?_
    rfl

/-- Settles O44: as in `STAT0`, the fields below are passed over. -/
theorem stat1Fields : Obligations.Stat1Fields := by
  intro s hbooted
  refine ⟨_, stat1_booted hbooted, ?_, ?_, ?_, ?_, ?_⟩
  · exact BitVec.extractLsb'_append_eq_right
  · exact getLsbD_flag _ s.filtEn _
  · iterate 2 refine (BitVec.extractLsb'_append_eq_of_le (by decide)).trans ?_
    exact BitVec.extractLsb'_append_eq_right
  · iterate 3 refine (BitVec.extractLsb'_append_eq_of_le (by decide)).trans ?_
    exact BitVec.extractLsb'_append_eq_right
  · iterate 4 refine (BitVec.extractLsb'_append_eq_of_le (by decide)).trans ?_
    rfl

/-! ### The instruction a step runs (R11) -/

/-- What an operation word selects is a function of `OP`, of BYTE's `DATA` and of RESET's configuration port (R71, R72). -/
theorem decodeOp_congr {w w' : OpWord} (hop : w'.opw.extractLsb' 8 2 = w.opw.extractLsb' 8 2)
    (hdata : w.opw.extractLsb' 8 2 = 1 → w'.opw.extractLsb' 0 8 = w.opw.extractLsb' 0 8)
    (hcfg : w.opw.extractLsb' 8 2 = 3 → w'.cfgFiltEn = w.cfgFiltEn ∧ w'.cfgFiltAddr = w.cfgFiltAddr) :
    decodeOp w' = decodeOp w := by
  rcases opcode_cases (w.opw.extractLsb' 8 2) with h | h | h | h
  · rw [decodeOp_nop h, decodeOp_nop (hop.trans h)]
  · rw [decodeOp_byte h, decodeOp_byte (hop.trans h), hdata h]
  · rw [decodeOp_timeout h, decodeOp_timeout (hop.trans h)]
  · obtain ⟨hen, haddr⟩ := hcfg h
    rw [decodeOp_reset h, decodeOp_reset (hop.trans h), hen, haddr]

/-- Another operation word that selects the same instruction gives the same step. -/
theorem step_congr_word {s : State} {w w' : OpWord} {ws : List OpWord} (hp : s.probe = none) (hi : s.inputs = w :: ws)
    (h : decodeOp w' = decodeOp w) : step { s with inputs := w' :: ws } = step s := by
  rw [step_inputs (s := { s with inputs := w' :: ws }) hp rfl, step_inputs hp hi, h]

/-- Settles O40: the port is read by RESET alone. -/
theorem configPortSampledOnlyByReset : Obligations.ConfigPortSampledOnlyByReset := by
  intro s w ws en addr hp hi hop
  exact step_congr_word hp hi (decodeOp_congr rfl (fun _ => rfl) fun h => absurd h hop)

/-- Settles O41: `DATA` is read by BYTE alone. -/
theorem dataBitsIgnored : Obligations.DataBitsIgnored := by
  intro s w w' ws hp hi hop hsame hen haddr
  exact step_congr_word hp hi (decodeOp_congr hsame (fun h => absurd h hop) fun _ => ⟨hen, haddr⟩)

theorem runWord_ok {w : PortWord} {i : Instr} (h : decode w = .ok i) (s : State) : runWord w s = exec i s := by
  rw [runWord, h]

theorem runWord_error {w : PortWord} {e : DecodeError} (h : decode w = .error e) (s : State) :
    runWord w s = .refused .illegalPayloadOffset := by
  rw [runWord, h]
  rfl

/-- Settles O49, by what is presented. -/
theorem stepRunsThePresentedInstruction : Obligations.StepRunsThePresentedInstruction := by
  intro s
  refine ⟨fun w ws hp hi => step_inputs hp hi, fun w i hp hdec => ?_, fun w e hp hdec => ?_, step_idle⟩
  · rw [step_probe hp, runWord_ok hdec]
    rfl
  · rw [step_probe hp, runWord_error hdec]

end Sys2Proof.Machine

/-! PROOF of O9, O12, O13, O16, O19, O20, O21, O35 and O36 (40_frame_accumulator.md, 42_matcher.md, 20_memory.md section 3):
what each instruction leaves unchanged, the paths of a BYTE in ACC, and the match of a completed frame. -/

namespace Sys2Proof.Machine

/-! ### What each instruction leaves unchanged -/

/-- No instruction writes the table or touches what is presented next (R31). -/
theorem exec_frame {i : Instr} {s t : State} (h : exec i s = .next t) :
    t.table = s.table ∧ t.inputs = s.inputs ∧ t.probe = s.probe := by
  obtain ⟨-, ⟨en, addr, -, rfl⟩ | ⟨-, hrun⟩⟩ := exec_next h
  · simp
  · rcases hrun with ⟨-, rfl⟩ | ⟨b, -, rfl⟩ | ⟨-, rfl⟩ | ⟨fs, p, -, -, rfl⟩ <;> simp

/-- Only RESET writes the filter registers and boots the block (R30). -/
theorem exec_config {i : Instr} {s t : State} (h : exec i s = .next t) (hi : ∀ en addr, i ≠ .reset en addr) :
    t.filtEn = s.filtEn ∧ t.filtAddr = s.filtAddr ∧ t.booted = s.booted := by
  obtain ⟨-, ⟨en, addr, rfl, -⟩ | ⟨-, hrun⟩⟩ := exec_next h
  · exact absurd rfl (hi en addr)
  · rcases hrun with ⟨-, rfl⟩ | ⟨b, -, rfl⟩ | ⟨-, rfl⟩ | ⟨fs, p, -, -, rfl⟩ <;> simp

/-- Only BYTE writes the buffer (R57). -/
theorem exec_buf {i : Instr} {s t : State} (h : exec i s = .next t) (hi : ∀ b, i ≠ .byte b) : t.buf = s.buf := by
  obtain ⟨-, ⟨en, addr, -, rfl⟩ | ⟨-, hrun⟩⟩ := exec_next h
  · simp
  · rcases hrun with ⟨-, rfl⟩ | ⟨b, rfl, -⟩ | ⟨-, rfl⟩ | ⟨fs, p, -, -, rfl⟩
    · simp
    · exact absurd rfl (hi b)
    · simp
    · simp

/-- Whatever completes leaves a block that has been RESET (R220). -/
theorem exec_booted {i : Instr} {s t : State} (h : exec i s = .next t) : t.booted = true := by
  obtain ⟨-, ⟨en, addr, -, rfl⟩ | ⟨⟨-, hbooted, -⟩, hrun⟩⟩ := exec_next h
  · rfl
  · rcases hrun with ⟨-, rfl⟩ | ⟨b, -, rfl⟩ | ⟨-, rfl⟩ | ⟨fs, p, -, -, rfl⟩ <;> simpa using hbooted

/-- Settles O21: the frame of every instruction, of all but RESET, and of all but BYTE. -/
theorem configurationChangesOnlyByReset : Obligations.ConfigurationChangesOnlyByReset := by
  intro i s t h
  obtain ⟨htable, hinputs, hprobe⟩ := exec_frame h
  exact ⟨htable, hinputs, hprobe, exec_config h, fun hi a => by rw [exec_buf h hi]⟩

/-- Settles O20: what is left when BYTE, TIMEOUT and RESET are excluded is NOP and the decoders. -/
theorem onlyTheRecordChanges : Obligations.OnlyTheRecordChanges := by
  intro i s t hbyte htimeout hreset h
  obtain ⟨-, ⟨en, addr, rfl, -⟩ | ⟨-, hrun⟩⟩ := exec_next h
  · exact absurd rfl (hreset en addr)
  · rcases hrun with ⟨rfl, rfl⟩ | ⟨b, rfl, -⟩ | ⟨rfl, -⟩ | ⟨fs, p, -, -, rfl⟩
    · exact ⟨rfl, fun _ => rfl, fun hnop => absurd rfl hnop⟩
    · exact absurd rfl (hbyte b)
    · exact absurd rfl htimeout
    · exact ⟨rfl, fun _ => rfl, fun _ => rfl⟩

/-! ### The cell that a BYTE writes (R51, R103) -/

theorem storeIndex_eq_some {n : Count} {a : Nat} : storeIndex n = some a ↔ n.toNat < Config.bufCap ∧ n.toNat = a := by
  simp [storeIndex]

theorem frameStart_clearOut (s : State) : frameStart (clearOut s) = clearOut (frameStart s) := by
  by_cases hp : s.phase = .idle
  · rw [frameStart_idle hp, frameStart_idle (by exact hp)]
    rfl
  · rw [frameStart_busy hp, frameStart_busy (by exact hp)]

/-- The byte is stored at its index in ACC, if it has one (R51, R103). -/
theorem byteStep_buf_stored (b : Byte) {s : State} {a : Nat} (hacc : (frameStart s).phase = .acc)
    (ha : storeIndex (frameStart s).cnt = some a) : (byteStep b s).buf = s.buf.write a b := by
  obtain ⟨hroom, rfl⟩ := storeIndex_eq_some.1 ha
  rw [byteStep_eq, conclude_buf, byteStart, frameStart_clearOut, accumulate_stored (by exact hacc) (by exact hroom)]
  split <;> simp

/-- A byte that is not stored leaves the buffer as it was. -/
theorem byteStep_buf_kept (b : Byte) {s : State}
    (h : (frameStart s).phase ≠ .acc ∨ storeIndex (frameStart s).cnt = none) : (byteStep b s).buf = s.buf := by
  rw [byteStep_eq, conclude_buf, byteStart, frameStart_clearOut]
  by_cases hacc : (frameStart s).phase = .acc
  · have hfull : ¬ (frameStart s).cnt.toNat < Config.bufCap := by simpa [storeIndex, hacc] using h
    rw [accumulate_overflow (by exact hacc) (by exact hfull)]
    simp
  · rw [accumulate_skip (by exact hacc)]
    simp

/-- Settles O19: the buffer is written once at the byte's index, or not at all. -/
theorem byteStoresOnlyAtItsIndex : Obligations.ByteStoresOnlyAtItsIndex := by
  intro s t b hwf h
  obtain ⟨-, rfl⟩ := execByte_next.1 h
  constructor
  · intro a hacc ha
    obtain ⟨hroom, rfl⟩ := storeIndex_eq_some.1 ha
    have hread := Memory.read_write s.buf (frameStart s).cnt.toNat b
    rw [byteStep_buf_stored b hacc ha]
    exact ⟨(hread _ hwf).trans (if_pos rfl), hroom, fun a' ha' => (hread a' hwf).trans (if_neg ha'.symm)⟩
  · intro hnone a'
    rw [byteStep_buf_kept b hnone]

/-! ### A BYTE in ACC -/

/-- Settles O9: a count that is neither the pre-check's nor the frame's end leaves the path in the middle. -/
theorem byteIsStoredCountedAndSummed : Obligations.ByteIsStoredCountedAndSummed := by
  intro s b L hrun hacc hroom hL hcount
  have hlatched : latched s.cnt b s.len = L := by rw [hL, latched, if_congr count_eq_four rfl rfl]
  have hpast : 5 ≤ s.cnt + 1 → 4 ≤ s.cnt.toNat := by
    rw [five_le_count, count_succ hroom]
    omega
  have hpre : ¬ (5 ≤ s.cnt + 1 ∧ s.cnt + 1 = precheckCount (latched s.cnt b s.len)) := fun ⟨h5, h⟩ =>
    (hcount (hpast h5)).1 (next_eq_precheckCount.1 (hlatched ▸ h))
  have hend : ¬ (5 ≤ s.cnt + 1 ∧ s.cnt + 1 = frameCount (latched s.cnt b s.len)) := fun ⟨h5, h⟩ =>
    (hcount (hpast h5)).2 (next_eq_frameCount.1 (hlatched ▸ h))
  rw [exec_byte_running b hrun, byteStep_acc_mid b hacc hroom hpre hend, hlatched]

/-- Settles O13: the overflow's path, told apart by the frame's last count. -/
theorem fullBufferOverflows : Obligations.FullBufferOverflows := by
  intro s b hrun hacc hfull
  rw [exec_byte_running b hrun, byteStep_overflow b hacc (Nat.not_lt.2 hfull), if_congr next_eq_frameCount rfl rfl]

theorem not_full {c : Count} (h : c.toNat < Config.bufCap) : ¬ 27 ≤ c.toNat := Nat.not_le.2 h

/-- Settles O16: the event of each path, and the phase that it leaves. -/
theorem diagnosticsLeaveAcc : Obligations.DiagnosticsLeaveAcc := by
  intro s t b h
  obtain ⟨⟨-, -, hr⟩, rfl⟩ := execByte_next.1 h
  rcases byteStep_cases b s hr with
    hp | ⟨hp, hn, hpre | ⟨h5, hend, h4⟩ | ⟨hpre, hend⟩⟩ | ⟨hp, hn⟩ | hp
  · simp [byteStep_idle b hp, hp]
  · by_cases hsum : s.csum + b = 0
    · simp [byteStep_acc_pass b hp hn hpre hsum, hp, not_full hn]
    · simp [byteStep_acc_fail b hp hn hpre hsum, hp, not_full hn]
  · simp [byteStep_acc_complete b hp hn ⟨h5, hend⟩ h4, hp, not_full hn]
  · simp [byteStep_acc_mid b hp hn hpre hend, hp, not_full hn]
  · have hfull : 27 ≤ s.cnt.toNat := Nat.not_lt.1 hn
    rw [byteStep_overflow b hp hn]
    split <;> simp [hp, hfull, OutRecord.zero]
  · by_cases hlast : s.cnt + 1 = frameCount s.len
    · simp [byteStep_skip_end b hp hlast, hp]
    · simp [byteStep_skip_mid b hp hlast, hp]

/-- Settles O12: COMPLETE on the stored frame. -/
theorem frameCompletesAtSevenPlusL : Obligations.FrameCompletesAtSevenPlusL := by
  intro s b hrun hacc hroom hlast
  have hn1 : (s.cnt + 1).toNat = 7 + s.len.toNat := (count_succ hroom).trans hlast
  refine ⟨_, exec_byte_running b hrun, ?_⟩
  rw [byteStep_completes b hacc hroom hlast, complete_eq]
  have hflen : ((s.cnt + 1).setWidth 5).toNat = 7 + s.len.toNat := by
    have hcap : s.cnt.toNat < 27 := hroom
    rw [BitVec.toNat_setWidth, hn1]
    omega
  refine ⟨rfl, matchFrame_out_ev _ _, rfl, matchFrame_out_sep _ _, matchFrame_out_chk _ _, matchFrame_out_acc _ _,
    ?_, ?_, matchFrame_out_pass _ _⟩
  · rw [matchFrame_out_flen]
    exact hflen
  · rw [matchFrame_out_frame, ← hn1]
    rfl

/-! ### The first match (R143) -/

/-- The scan from the table's front, its first entry having index `j0`, stops at the first entry that describes the
frame. -/
theorem firstMatch_eq_some {m : Memory} {n j j0 : Nat} {t : List Entry} {e : Entry} (he : t[j]? = some e)
    (hmatch : EntryDescribes m n e) (hfirst : ∀ j' e', j' < j → t[j']? = some e' → ¬ EntryDescribes m n e') :
    firstMatch m n j0 t = some (j0 + j, e) := by
  induction t generalizing j j0 with
  | nil => simp at he
  | cons e0 rest ih =>
    cases j with
    | zero =>
      cases he
      rw [firstMatch, if_pos (entryMatches_iff.2 hmatch)]
      rfl
    | succ j =>
      have hmiss : ¬ EntryDescribes m n e0 := hfirst 0 e0 (Nat.succ_pos j) rfl
      rw [firstMatch, if_neg (mt entryMatches_iff.1 hmiss),
        ih (j0 := j0 + 1) he fun j' e' hj' => hfirst (j' + 1) e' (Nat.succ_lt_succ hj')]
      congr 2
      omega

/-- What COMPLETE outputs of a frame whose first match is entry `j`: the match, and what the selected decoder decodes. -/
theorem complete_out_matched {n1 : Count} {s : State} {j : Nat} {e : Entry}
    (h : firstMatch s.buf n1.toNat 0 s.table = some (j, e)) :
    (complete n1 s).out =
      { (extract e.hk e.p
          (outputHit j e (outputPass (outputFrame n1 (attachSum (raise .frameComplete s)))))).out with fend := true } := by
  rw [complete_eq, matchFrame, outputPass_buf, outputFrame_buf, attachSum_buf, raise_buf, outputPass_table,
    outputFrame_table, attachSum_table, raise_table, h]

/-- The step whose byte completes a frame with first match `j`. -/
theorem byteStep_out_matched {s : State} {b : Byte} {j : Nat} {e : Entry} (hacc : s.phase = .acc)
    (hroom : s.cnt.toNat < Config.bufCap) (hlast : s.cnt.toNat + 1 = 7 + s.len.toNat) (he : s.table[j]? = some e)
    (hmatch : EntryDescribes (s.buf.write s.cnt.toNat b) (7 + s.len.toNat) e)
    (hfirst : ∀ j' e', j' < j → s.table[j']? = some e' →
      ¬ EntryDescribes (s.buf.write s.cnt.toNat b) (7 + s.len.toNat) e') :
    (byteStep b s).out =
      { (extract e.hk e.p (outputHit j e (outputPass (outputFrame (s.cnt + 1)
          (attachSum (raise .frameComplete (completed b s))))))).out with fend := true } := by
  have hn1 : (s.cnt + 1).toNat = 7 + s.len.toNat := (count_succ hroom).trans hlast
  have hscan := firstMatch_eq_some (j0 := 0) he hmatch hfirst
  rw [Nat.zero_add, ← hn1] at hscan
  rw [byteStep_completes b hacc hroom hlast, complete_out_matched (s := completed b s) hscan]

/-- An index of a well-formed table fits the five bits of `m_idx` (R8). -/
theorem toNat_tableIndex {t : List Entry} {j : Nat} {e : Entry} (ht : tableWf t = true) (he : t[j]? = some e) :
    (BitVec.ofNat 5 j).toNat = j := by
  obtain ⟨hlen, -⟩ := tableWf_iff.1 ht
  obtain ⟨hj, -⟩ := List.getElem?_eq_some_iff.1 he
  exact Nat.mod_eq_of_lt (by omega)

/-- Settles O35: the record of the step, with the index within five bits. -/
theorem firstMatchWins : Obligations.FirstMatchWins := by
  intro s b j e hrun hacc hroom hlast he hmatch hfirst
  have ⟨htable, _, _⟩ := hrun
  refine ⟨_, exec_byte_running b hrun, ?_⟩
  rw [byteStep_out_matched hacc hroom hlast he hmatch hfirst]
  exact ⟨rfl, rfl, toNat_tableIndex htable he, rfl, rfl⟩

/-- Settles O36: the multiplexer runs the decoder whose instruction it is, and a decoder reads no output. -/
theorem multiplexerRunsTheSelectedDecoder : Obligations.MultiplexerRunsTheSelectedDecoder := by
  intro s b j e hrun hacc hroom hlast he hmatch hfirst
  have ⟨htable, _, _⟩ := hrun
  obtain ⟨-, hentries⟩ := tableWf_iff.1 htable
  obtain ⟨-, hp⟩ := entry_wf_iff.1 (hentries e (List.mem_of_getElem? he))
  refine ⟨_, _, exec_byte_running b hrun,
    exec_field_running (s := completed b s) (fselOf e.hk) e.p hrun (offsetWf_iff.2 hp), ?_⟩
  rw [byteStep_out_matched hacc hroom hlast he hmatch hfirst]
  exact ⟨rfl, rfl, rfl, rfl, rfl⟩

end Sys2Proof.Machine

/-! PROOF of O53, O54, O52 and O42 (10_state.md section 5, 30_encoding.md section 2): what the state after reset meets and
every step keeps, and the bounds that follow. -/

namespace Sys2Proof.Machine

/-! ### Legal records (R73, R75, R162) -/

theorem OutRecord.zero_legal : OutRecord.zero.Legal :=
  ⟨rfl, by decide, fun i hi _ => by simp [OutRecord.zero, hi], by decide, by decide, by decide⟩

/-- A record that outputs no frame and decodes no temperature is legal when its event is. -/
theorem OutRecord.legal_of_no_frame {o : OutRecord} (hev : o.ev ≠ .badLength) (hframe : o.frame = OutRecord.zero.frame)
    (hflen : o.flen = 0) (hc10 : o.c10 = 0) (hf10 : o.f10 = 0) : o.Legal := by
  obtain ⟨hlen, hmost, hzero, -, hc, hf⟩ := OutRecord.zero_legal
  exact ⟨hframe ▸ hlen, hflen ▸ hmost, hframe ▸ hflen ▸ hzero, hev, hc10 ▸ hc, hf10 ▸ hf⟩

/-- A record that outputs the first `n` bytes of the buffer is legal when its event and its temperatures are. -/
theorem OutRecord.legal_of_frame {o : OutRecord} {m : Memory} {n : Count} (hn : n.toNat ≤ Config.bufCap)
    (hev : o.ev ≠ .badLength) (hframe : o.frame = frameBytes m n.toNat) (hflen : o.flen = n.setWidth 5)
    (hc10 : o.c10.toNat ≤ 25665) (hf10 : o.f10.toNat ≤ 46517) : o.Legal := by
  have hflenNat : o.flen.toNat = n.toNat := by
    rw [hflen, BitVec.toNat_setWidth, Nat.mod_eq_of_lt (by rw [Config.bufCap] at hn; omega)]
  refine ⟨hframe ▸ frameBytes_length m _, hflenNat ▸ hn, fun i hi hge => ?_, hev, hc10, hf10⟩
  rw [hframe, frameBytes_get m _ i hi, if_neg (by omega)]

/-- Every decoder's temperatures are in range, those it does not set being 0 (R162). -/
theorem fieldOut_temps_le (fs : FSel) (p : Nat) (s : State) :
    (fieldOut fs p s).c10.toNat ≤ 25665 ∧ (fieldOut fs p s).f10.toNat ≤ 46517 := by
  unfold fieldOut
  split
  · exact ⟨Nat.zero_le _, Nat.zero_le _⟩
  · cases fs with
    | fTemp =>
      obtain ⟨hc10, hf10⟩ := decodeTemp_toNat p s
      have hle : (decodeTemp p s).c10.toNat ≤ 25665 := hc10 ▸ celsiusTenths_le _ _
      exact ⟨hle, hf10 ▸ fahrenheitTenths_le hle⟩
    | _ => exact ⟨Nat.zero_le _, Nat.zero_le _⟩

theorem matchFrame_temps_le (n : Nat) {s : State} (hc10 : s.out.c10 = 0) (hf10 : s.out.f10 = 0) :
    (matchFrame n s).out.c10.toNat ≤ 25665 ∧ (matchFrame n s).out.f10.toNat ≤ 46517 := by
  unfold matchFrame
  split
  · exact fieldOut_temps_le _ _ _
  · simp [hc10, hf10]

theorem runField_legal (fs : FSel) (p : Offset) {s : State} (h : s.out.Legal) : (runField fs p s).out.Legal := by
  obtain ⟨hlen, hmost, hzero, hev, -, -⟩ := h
  obtain ⟨hc10, hf10⟩ := fieldOut_temps_le fs p.toNat s
  exact ⟨hlen, hmost, hzero, hev, hc10, hf10⟩

theorem complete_legal {n1 : Count} {s : State} (hn : n1.toNat ≤ Config.bufCap) (hout : s.out = OutRecord.zero) :
    (complete n1 s).out.Legal := by
  have htemps := matchFrame_temps_le n1.toNat
    (s := outputPass (outputFrame n1 (attachSum (raise .frameComplete s)))) (by simp [hout, OutRecord.zero])
    (by simp [hout, OutRecord.zero])
  rw [complete_eq]
  exact OutRecord.legal_of_frame (m := s.buf) hn (by simp) (by simp) (by simp) htemps.1 htemps.2

/-! ### The phases' invariants (R37 to R39) -/

theorem State.phaseInv_idle {s : State} (h : s.phase = .idle) : s.PhaseInv ↔ s.IdleInv := by
  rw [State.PhaseInv, h]

theorem State.phaseInv_acc {s : State} (h : s.phase = .acc) : s.PhaseInv ↔ s.AccInv := by
  rw [State.PhaseInv, h]

theorem State.phaseInv_skip {s : State} (h : s.phase = .skip) : s.PhaseInv ↔ s.SkipInv := by
  rw [State.PhaseInv, h]

/-- The frame state that a frame's end leaves is IDLE's (R37, R110). -/
theorem State.phaseInv_cleared {s : State} (hp : s.phase = .idle) (h : s.IdleInv) : s.PhaseInv :=
  (State.phaseInv_idle hp).2 h

theorem State.PhaseInv.not_reserved {s : State} (h : s.PhaseInv) : s.phase ≠ .reserved := by
  intro hp
  rw [State.PhaseInv, hp] at h
  exact h

/-- The sum of the bytes held, one more being stored (R25). -/
theorem frameSum_write_succ {m : Memory} (hwf : m.wf = true) (n : Nat) (b : Byte) :
    frameSum (m.write n b) (n + 1) = frameSum m n + b := by
  have hbelow : frameSum (m.write n b) n = frameSum m n :=
    frameSum_congr _ _ n fun i hi => by rw [Memory.read_write m n b i hwf, if_neg (by omega)]
  rw [frameSum, hbelow, Memory.read_write m n b n hwf, if_pos rfl]

/-- A byte stored in ACC: counted, summed, stored and latched, nothing else having happened yet (R101 to R104). -/
def stored (b : Byte) (s : State) : State :=
  { s with cnt := s.cnt + 1, csum := s.csum + b, len := latched s.cnt b s.len, buf := s.buf.write s.cnt.toNat b }

theorem stored_cnt (b : Byte) {s : State} (hroom : s.cnt.toNat < Config.bufCap) :
    (stored b s).cnt.toNat = s.cnt.toNat + 1 := count_succ hroom

section
variable {s : State} (b : Byte) (h : s.AccInv) (hwf : s.buf.wf = true) (hroom : s.cnt.toNat < Config.bufCap)
include h hwf hroom

theorem stored_csum : (stored b s).csum = frameSum (stored b s).buf (stored b s).cnt.toNat := by
  obtain ⟨-, -, -, -, hsum, -, -, -⟩ := h
  rw [stored_cnt b hroom]
  exact (congrArg (· + b) hsum).trans (frameSum_write_succ hwf _ b).symm

/-- Before the length byte `LEN` is 0; from it on it is that byte. -/
theorem stored_len :
    ((stored b s).cnt.toNat < 5 → (stored b s).len = 0) ∧
    (5 ≤ (stored b s).cnt.toNat →
      (stored b s).len = lengthByte (stored b s) ∧ (stored b s).cnt.toNat ≤ 7 + (stored b s).len.toNat) := by
  obtain ⟨-, -, -, -, -, hzero, hlen, -⟩ := h
  have hcnt := stored_cnt b hroom
  have hread : lengthByte (stored b s) = if s.cnt.toNat = 4 then b else lengthByte s :=
    Memory.read_write s.buf s.cnt.toNat b 4 hwf
  by_cases h4 : s.cnt = 4
  · have hcnt4 := count_eq_four.1 h4
    have hlatched : (stored b s).len = b := if_pos h4
    rw [hread, if_pos hcnt4, hlatched, hcnt, hcnt4]
    exact ⟨nofun, fun _ => ⟨rfl, by omega⟩⟩
  · have hne4 : s.cnt.toNat ≠ 4 := mt count_eq_four.2 h4
    have hlatched : (stored b s).len = s.len := if_neg h4
    rw [hread, if_neg hne4, hlatched]
    refine ⟨fun hlow => hzero (by omega), fun hpast => ?_⟩
    obtain ⟨hbyte, hbound⟩ := hlen (by omega)
    exact ⟨hbyte, by omega⟩

/-- A byte stored before the frame's end keeps ACC's invariant, when the pre-check it may bring is passed (R38). -/
theorem stored_accInv (hend : ¬ (5 ≤ s.cnt + 1 ∧ s.cnt + 1 = frameCount (latched s.cnt b s.len)))
    (hpass : 5 ≤ s.cnt + 1 ∧ s.cnt + 1 = precheckCount (latched s.cnt b s.len) → s.csum + b = 0) :
    (stored b s).AccInv := by
  obtain ⟨hlow, hpast⟩ := stored_len b h hwf hroom
  have hsum := stored_csum b h hwf hroom
  have hcnt := stored_cnt b hroom
  obtain ⟨hpos, -, hovf, hskipc, -⟩ := h
  have hend' : 5 ≤ (stored b s).cnt.toNat → (stored b s).cnt.toNat ≠ 7 + (stored b s).len.toNat :=
    fun h5 he => hend ⟨five_le_count.2 h5, eq_frameCount.2 he⟩
  refine ⟨by omega, by omega, hovf, hskipc, hsum, hlow, fun h5 => ?_, fun h6 => ?_⟩
  · obtain ⟨hbyte, hbound⟩ := hpast h5
    exact ⟨hbyte, by have := hend' h5; omega⟩
  · have h5 : 5 ≤ (stored b s).cnt.toNat := by omega
    exact hpass ⟨five_le_count.2 h5, eq_precheckCount.2 h6⟩

/-- A byte whose pre-check fails meets SKIP's invariant: one byte of its frame is still to come (R39). -/
theorem stored_skipInv (hpre : 5 ≤ s.cnt + 1 ∧ s.cnt + 1 = precheckCount (latched s.cnt b s.len)) :
    ({ stored b s with phase := .skip, csum := 0, skipc := true } : State).SkipInv := by
  obtain ⟨h5, h6⟩ := hpre
  obtain ⟨-, hpast⟩ := stored_len b h hwf hroom
  obtain ⟨hbyte, -⟩ := hpast (five_le_count.1 h5)
  have hcnt : (stored b s).cnt.toNat = 6 + (stored b s).len.toNat := eq_precheckCount.1 h6
  obtain ⟨-, -, hovf, -⟩ := h
  have hpast : 6 ≤ (stored b s).cnt.toNat := by omega
  have hbefore : (stored b s).cnt.toNat < 7 + (stored b s).len.toNat := by omega
  exact ⟨hpast, hbefore, hbyte, hovf⟩

end

/-! ### BYTE keeps the invariant -/

/-- A byte before the last of its frame is counted without wrapping, and stays before the last (R113). -/
theorem count_mid {c : Count} {len : Byte} (hlow : 5 ≤ c.toNat) (hlt : c.toNat < 7 + len.toNat)
    (hmid : c + 1 ≠ frameCount len) : 6 ≤ (c + 1).toNat ∧ (c + 1).toNat < 7 + len.toNat := by
  have hlen := len.isLt
  have hne := mt next_eq_frameCount.2 hmid
  have hsucc : (c + 1).toNat = (c.toNat + 1) % 512 := BitVec.toNat_add c 1
  omega

theorem byteStep_wf (b : Byte) {s : State} (hwf : s.buf.wf = true) : (byteStep b s).buf.wf = true := by
  by_cases hacc : (frameStart s).phase = .acc
  · cases ha : storeIndex (frameStart s).cnt with
    | some a =>
      obtain ⟨hroom, rfl⟩ := storeIndex_eq_some.1 ha
      rw [byteStep_buf_stored b hacc ha]
      exact Memory.wf_write _ _ _ hwf hroom
    | none => rwa [byteStep_buf_kept b (.inr ha)]
  · rwa [byteStep_buf_kept b (.inl hacc)]

/-- Every path of a BYTE leaves a legal record: a frame is output only while the buffer has room for its last byte. -/
theorem byteStep_legal (b : Byte) {s : State} (hr : s.phase ≠ .reserved) : (byteStep b s).out.Legal := by
  rcases byteStep_cases b s hr with
    hp | ⟨hp, hn, hpre | ⟨h5, hend, h4⟩ | ⟨hpre, hend⟩⟩ | ⟨hp, hn⟩ | hp
  · rw [byteStep_idle b hp]
    exact OutRecord.legal_of_no_frame nofun rfl rfl rfl rfl
  · by_cases hsum : s.csum + b = 0
    · rw [byteStep_acc_pass b hp hn hpre hsum]
      exact OutRecord.legal_of_no_frame nofun rfl rfl rfl rfl
    · rw [byteStep_acc_fail b hp hn hpre hsum]
      exact OutRecord.legal_of_frame (by rw [count_succ hn]; exact hn) nofun rfl rfl (Nat.zero_le _) (Nat.zero_le _)
  · rw [byteStep_acc_complete b hp hn ⟨h5, hend⟩ h4]
    exact complete_legal (by rw [count_succ hn]; exact hn) rfl
  · rw [byteStep_acc_mid b hp hn hpre hend]
    exact OutRecord.legal_of_no_frame nofun rfl rfl rfl rfl
  · rw [byteStep_overflow b hp hn]
    split
    · exact OutRecord.legal_of_no_frame nofun rfl rfl rfl rfl
    · exact OutRecord.legal_of_no_frame nofun rfl rfl rfl rfl
  · by_cases hlast : s.cnt + 1 = frameCount s.len
    · rw [byteStep_skip_end b hp hlast]
      exact OutRecord.legal_of_no_frame nofun rfl rfl rfl rfl
    · rw [byteStep_skip_mid b hp hlast]
      exact OutRecord.legal_of_no_frame nofun rfl rfl rfl rfl

theorem byteStep_phaseInv (b : Byte) {s : State} (hwf : s.buf.wf = true) (hinv : s.PhaseInv) :
    (byteStep b s).PhaseInv := by
  rcases byteStep_cases b s hinv.not_reserved with
    hp | ⟨hp, hn, hpre | ⟨h5, hend, h4⟩ | ⟨hpre, hend⟩⟩ | ⟨hp, hn⟩ | hp
  · rw [byteStep_idle b hp]
    have hsum : b = frameSum (s.buf.write 0 b) 1 := by
      rw [frameSum_write_succ hwf 0, frameSum]
      exact (BitVec.zero_add b).symm
    exact (State.phaseInv_acc rfl).2 ⟨Nat.le_refl 1, Nat.le_add_left 1 26, rfl, rfl, hsum, fun _ => rfl, nofun, nofun⟩
  · have hacc := (State.phaseInv_acc hp).1 hinv
    by_cases hsum : s.csum + b = 0
    · have hend : ¬ (5 ≤ s.cnt + 1 ∧ s.cnt + 1 = frameCount (latched s.cnt b s.len)) :=
        fun hx => precheckCount_ne_frameCount _ (hpre.2.symm.trans hx.2)
      have hstored : byteStep b s =
          { stored b s with out := { OutRecord.zero with ev := .continuing, chk := true, acc := 0 } } := by
        rw [byteStep_acc_pass b hp hn hpre hsum, stored, hsum]
      rw [hstored]
      exact (State.phaseInv_acc (by exact hp)).2 (stored_accInv b hacc hwf hn hend fun _ => hsum)
    · rw [byteStep_acc_fail b hp hn hpre hsum]
      exact (State.phaseInv_skip rfl).2 (stored_skipInv b hacc hwf hn hpre)
  · rw [byteStep_acc_complete b hp hn ⟨h5, hend⟩ h4, complete_eq]
    exact State.phaseInv_cleared rfl ⟨rfl, rfl, rfl, rfl, rfl⟩
  · have hacc := (State.phaseInv_acc hp).1 hinv
    rw [byteStep_acc_mid b hp hn hpre hend]
    exact (State.phaseInv_acc (by exact hp)).2 (stored_accInv b hacc hwf hn hend fun h => absurd h hpre)
  · obtain ⟨-, hfull, -, -, -, -, hpast, -⟩ := (State.phaseInv_acc hp).1 hinv
    have hcnt : s.cnt.toNat = 27 := Nat.le_antisymm hfull (Nat.not_lt.1 hn)
    obtain ⟨hbyte, hbound⟩ := hpast (by omega)
    rw [byteStep_overflow b hp hn]
    split
    · exact State.phaseInv_cleared rfl ⟨rfl, rfl, rfl, rfl, rfl⟩
    · next hmid =>
      obtain ⟨hlow, hlt⟩ := count_mid (by omega) (by omega) hmid
      exact (State.phaseInv_skip rfl).2 ⟨hlow, hlt, hbyte, rfl⟩
  · obtain ⟨hlow, hlt, hbyte, hovf⟩ := (State.phaseInv_skip hp).1 hinv
    by_cases hlast : s.cnt + 1 = frameCount s.len
    · rw [byteStep_skip_end b hp hlast]
      exact State.phaseInv_cleared rfl ⟨rfl, rfl, rfl, rfl, rfl⟩
    · obtain ⟨hlow', hlt'⟩ := count_mid (by omega) hlt hlast
      rw [byteStep_skip_mid b hp hlast]
      exact (State.phaseInv_skip (by exact hp)).2 ⟨hlow', hlt', hbyte, hovf⟩

/-! ### Every step keeps the invariant -/

/-- The invariant is indifferent to what is presented, and clearing the record keeps it. -/
theorem State.Inv.fetched {s : State} (h : s.Inv) (inputs : List OpWord) (probe : Option SelWord) :
    (clearOut { s with inputs := inputs, probe := probe }).Inv := by
  obtain ⟨hwf, -, hphase⟩ := h
  exact ⟨hwf, OutRecord.zero_legal, hphase⟩

theorem timeoutStep_legal (s : State) : (timeoutStep s).out.Legal := by
  by_cases hp : s.phase = .idle
  · rw [timeoutStep_idle hp]
    exact OutRecord.legal_of_no_frame nofun rfl rfl rfl rfl
  · rw [timeoutStep_busy hp]
    exact OutRecord.legal_of_no_frame nofun rfl rfl rfl rfl

/-- Every instruction leaves a legal record; a decoder keeps what is legal of the record it finds. -/
theorem exec_legal {i : Instr} {s t : State} (h : s.out.Legal) (hexec : exec i s = .next t) : t.out.Legal := by
  obtain ⟨-, ⟨en, addr, -, rfl⟩ | ⟨⟨-, -, hr⟩, hrun⟩⟩ := exec_next hexec
  · exact OutRecord.legal_of_no_frame nofun rfl rfl rfl rfl
  · rcases hrun with ⟨-, rfl⟩ | ⟨b, -, rfl⟩ | ⟨-, rfl⟩ | ⟨fs, p, -, -, rfl⟩
    · exact OutRecord.zero_legal
    · exact byteStep_legal b hr
    · exact timeoutStep_legal s
    · exact runField_legal fs p h

theorem timeoutStep_phaseInv {s : State} (h : s.PhaseInv) : (timeoutStep s).PhaseInv := by
  by_cases hp : s.phase = .idle
  · rw [timeoutStep_idle hp]
    exact h
  · rw [timeoutStep_busy hp]
    exact State.phaseInv_cleared rfl ⟨rfl, rfl, rfl, rfl, rfl⟩

/-- Every instruction keeps the invariant. -/
theorem exec_keeps_inv {i : Instr} {s t : State} (h : s.Inv) (hexec : exec i s = .next t) : t.Inv := by
  obtain ⟨hwf, hlegal, hphase⟩ := h
  have hlegal' := exec_legal hlegal hexec
  obtain ⟨-, ⟨en, addr, -, rfl⟩ | ⟨⟨-, hbooted, -⟩, hrun⟩⟩ := exec_next hexec
  · exact ⟨hwf, hlegal', fun _ => State.phaseInv_cleared rfl ⟨rfl, rfl, rfl, rfl, rfl⟩⟩
  · have hinv := hphase hbooted
    rcases hrun with ⟨-, rfl⟩ | ⟨b, -, rfl⟩ | ⟨-, rfl⟩ | ⟨fs, p, -, -, rfl⟩
    · exact ⟨hwf, hlegal', hphase⟩
    · exact ⟨byteStep_wf b hwf, hlegal', fun _ => byteStep_phaseInv b hwf hinv⟩
    · exact ⟨by simpa using hwf, hlegal', fun _ => timeoutStep_phaseInv hinv⟩
    · exact ⟨hwf, hlegal', hphase⟩

/-- A step that presents something runs its instruction on the state with the record cleared (R73). -/
theorem fetch_eq_clearOut {s s' : State} {w : PortWord} (h : fetch s = some (w, s')) :
    ∃ inputs probe, s' = clearOut { s with inputs := inputs, probe := probe } := by
  unfold fetch at h
  split at h
  · cases h
    exact ⟨s.inputs, none, rfl⟩
  · split at h
    · cases h
    · next w ws _ =>
      cases h
      exact ⟨ws, s.probe, rfl⟩

/-- Settles O53: the state a step's instruction starts from meets the invariant, and the instruction keeps it. -/
theorem stepKeepsInv : Obligations.StepKeepsInv := by
  intro s t h hstep
  obtain ⟨-, -, rfl⟩ | ⟨w, s', i, hfetch, -, hexec⟩ := step_next hstep
  · exact h
  · obtain ⟨inputs, probe, rfl⟩ := fetch_eq_clearOut hfetch
    exact exec_keeps_inv (h.fetched inputs probe) hexec

/-! ### The bounds -/

theorem step_booted {s t : State} (hbooted : s.booted = true) (h : step s = .next t) : t.booted = true := by
  obtain ⟨-, -, rfl⟩ | ⟨w, s', i, -, -, hexec⟩ := step_next h
  · exact hbooted
  · exact exec_booted hexec

/-- Within a frame the count stays below `7 + LEN`, and `LEN` is at most 255 (R113). -/
theorem State.PhaseInv.cnt_le {s : State} (h : s.PhaseInv) : s.cnt.toNat ≤ 262 := by
  have hlen := s.len.isLt
  cases hp : s.phase with
  | idle =>
    obtain ⟨hcnt, -⟩ := (State.phaseInv_idle hp).1 h
    simp [hcnt]
  | acc =>
    obtain ⟨-, hcnt, -⟩ := (State.phaseInv_acc hp).1 h
    exact hcnt.trans (by decide)
  | skip =>
    obtain ⟨-, hcnt, -⟩ := (State.phaseInv_skip hp).1 h
    omega
  | reserved => exact absurd hp h.not_reserved

/-- Settles O54: both bounds are in the phase's invariant, which the step keeps. -/
theorem countNeverExceeds262 : Obligations.CountNeverExceeds262 := by
  intro s t h hbooted hstep
  obtain ⟨-, -, hphase⟩ := stepKeepsInv s t h hstep
  have hinv := hphase (step_booted hbooted hstep)
  exact ⟨hinv.not_reserved, hinv.cnt_le⟩

/-- Settles O52: the state after reset holds an empty buffer, a record with no frame, and IDLE's cleared frame state. -/
theorem resetMeetsInv : Obligations.ResetMeetsInv := by
  have hreset : ∀ t en addr, (State.resetWith t en addr).Inv := fun t en addr =>
    ⟨rfl, OutRecord.legal_of_no_frame nofun rfl rfl rfl rfl,
      fun _ => State.phaseInv_cleared rfl ⟨rfl, rfl, rfl, rfl, rfl⟩⟩
  exact ⟨hreset [] false 0, hreset⟩

theorem Event.code_of_ne_badLength {e : Event} (h : e ≠ .badLength) : e.code ≠ 5 ∧ e.code.toNat < 10 := by
  cases e with
  | badLength => exact absurd rfl h
  | _ => decide

/-- Settles O42: the record starts legal, every instruction leaves it legal, and a legal record's event is not reserved. -/
theorem reservedEventsNeverProduced : Obligations.ReservedEventsNeverProduced := by
  intro i s t hout hexec
  obtain ⟨-, -, -, hev, -⟩ := exec_legal (hout ▸ OutRecord.zero_legal) hexec
  exact Event.code_of_ne_badLength hev

end Sys2Proof.Machine

/-! PROOF of O58, O22 and O59 (10_state.md section 5, 43_field_extractor.md section 3, 00_scope.md section 5): what no
operation can tell apart, and what a decoder reads. -/

namespace Sys2Proof.Machine

/-! ### Buffers that agree below an index -/

/-- The two buffers read the same below index `n`. -/
def AgreeBelow (n : Nat) (m m' : Memory) : Prop := ∀ i, i < n → m'.read i = m.read i

theorem AgreeBelow.mono {n k : Nat} {m m' : Memory} (h : AgreeBelow n m m') (hk : k ≤ n) : AgreeBelow k m m' :=
  fun i hi => h i (hi.trans_le hk)

/-- The same byte stored at index `n` in both buffers extends the agreement by one cell. -/
theorem AgreeBelow.write {n : Nat} {m m' : Memory} (h : AgreeBelow n m m') (hwf : m.wf = true) (hwf' : m'.wf = true)
    (b : Byte) : AgreeBelow (n + 1) (m.write n b) (m'.write n b) := by
  intro i hi
  rw [Memory.read_write _ _ _ _ hwf, Memory.read_write _ _ _ _ hwf']
  split
  · rfl
  · exact h i (by omega)

theorem AgreeBelow.frameBytes {n : Nat} {m m' : Memory} (h : AgreeBelow n m m') :
    frameBytes m' n = frameBytes m n :=
  frameBytes_congr m' m n h

theorem AgreeBelow.patMatches {n : Nat} {m m' : Memory} (h : AgreeBelow n m m') (j : Nat) (pat : List (Byte × Byte)) :
    patMatches m' n j pat = patMatches m n j pat := by
  induction pat generalizing j with
  | nil => rfl
  | cons pos rest ih =>
    obtain ⟨mask, exp⟩ := pos
    rw [Machine.patMatches, Machine.patMatches, ih]
    by_cases hj : j < n
    · rw [h j hj]
    · simp [hj]

theorem AgreeBelow.firstMatch {n : Nat} {m m' : Memory} (h : AgreeBelow n m m') (j : Nat) (t : List Entry) :
    firstMatch m' n j t = firstMatch m n j t := by
  induction t generalizing j with
  | nil => rfl
  | cons e rest ih => rw [Machine.firstMatch, Machine.firstMatch, ih, entryMatches, h.patMatches, entryMatches]

/-! ### What a decoder reads (R170) -/

/-- A decoder reads the payload bytes of its width. -/
theorem decodeField_congr (fs : FSel) (p : Nat) {s s' : State}
    (h : ∀ i, i < fieldWidth fs → payloadByte s' (p + i) = payloadByte s (p + i)) :
    decodeField fs p s' = decodeField fs p s := by
  cases fs with
  | fNone | fOk => rfl
  | fPower | fModeSet | fModeGet | fFan | fStatus =>
    have h0 : payloadByte s' p = payloadByte s p := h 0 Nat.one_pos
    simp only [decodeField, decodePower, decodeModeSet, decodeModeGet, decodeFan, decodeStatus, h0]
  | fTemp =>
    have h0 : payloadByte s' p = payloadByte s p := h 0 Nat.two_pos
    have h1 : payloadByte s' (p + 1) = payloadByte s (p + 1) := h 1 Nat.one_lt_two
    simp only [decodeField, decodeTemp, h0, h1]

/-- Which fields are decoded depends on `LEN` and on the payload that it declares. -/
theorem fieldOut_congr (fs : FSel) (p : Nat) {s s' : State} (hlen : s'.len = s.len)
    (h : AgreeBelow (5 + s.len.toNat) s.buf s'.buf) : fieldOut fs p s' = fieldOut fs p s := by
  rw [fieldOut, fieldOut, hlen]
  split
  · rfl
  · next hinside =>
    rw [fieldOutside_iff] at hinside
    refine decodeField_congr fs p fun i hi => h _ ?_
    rw [Config.payloadBase]
    omega

theorem exec_instr_next {fs : FSel} {p : Offset} {s t : State} (h : exec (fs.instr p) s = .next t) :
    t = runField fs p s := by
  cases fs with
  | fNone =>
    obtain ⟨-, rfl⟩ := execFNone_next.1 h
    exact runField_no_width rfl _ _ _
  | fOk =>
    obtain ⟨-, rfl⟩ := execFOk_next.1 h
    exact runField_no_width rfl _ _ _
  | _ =>
    obtain ⟨-, -, rfl⟩ := execField_next.1 h
    rfl

/-- Settles O22: the decoded fields agree, being a function of `buf` and `LEN`. -/
theorem decodersReadOnlyTheFrame : Obligations.DecodersReadOnlyTheFrame := by
  intro fs p s s' t t' hbuf hlen hexec hexec'
  have hfield : fieldOut fs p.toNat s' = fieldOut fs p.toNat s :=
    fieldOut_congr fs p.toNat hlen.symm fun i _ => by rw [hbuf]
  rw [exec_instr_next hexec, exec_instr_next hexec']
  simp [hfield]

/-! ### COMPLETE on another buffer -/

/-- The block with the buffer `m`. -/
def withBuf (m : Memory) (s : State) : State := { s with buf := m }

/-- The filter's comparands are within the first three bytes (R181). -/
theorem filterPass_withBuf {n : Nat} {m : Memory} {s : State} (h : AgreeBelow n s.buf m) (hn : 3 ≤ n) :
    filterPass (withBuf m s) = filterPass s := by
  have h1 : m.read 1 = s.buf.read 1 := h 1 (by omega)
  have h2 : m.read 2 = s.buf.read 2 := h 2 (by omega)
  simp only [filterPass, comparand1, comparand2, withBuf, h1, h2]

theorem outputFrame_withBuf {n : Count} {m : Memory} {s : State} (h : AgreeBelow n.toNat s.buf m) :
    outputFrame n (withBuf m s) = withBuf m (outputFrame n s) := by
  simp only [outputFrame, withBuf, h.frameBytes]

theorem outputPass_withBuf {n : Nat} {m : Memory} {s : State} (h : AgreeBelow n s.buf m) (hn : 3 ≤ n) :
    outputPass (withBuf m s) = withBuf m (outputPass s) := by
  rw [outputPass, filterPass_withBuf h hn]
  rfl

theorem runField_withBuf (fs : FSel) (p : Offset) {m : Memory} {s : State}
    (h : AgreeBelow (5 + s.len.toNat) s.buf m) : runField fs p (withBuf m s) = withBuf m (runField fs p s) := by
  have hfield : fieldOut fs p.toNat (withBuf m s) = fieldOut fs p.toNat s := fieldOut_congr fs p.toNat rfl h
  rw [runField, hfield]
  rfl

/-- MATCH reads the bytes of the frame, of which the payload is a part. -/
theorem matchFrame_withBuf {n : Nat} {m : Memory} {s : State} (h : AgreeBelow n s.buf m) (hn : 5 + s.len.toNat ≤ n) :
    matchFrame n (withBuf m s) = withBuf m (matchFrame n s) := by
  have hfirst : firstMatch (withBuf m s).buf n 0 (withBuf m s).table = firstMatch s.buf n 0 s.table :=
    h.firstMatch 0 s.table
  rw [matchFrame, matchFrame, hfirst]
  split
  · next j e _ => exact runField_withBuf (s := outputHit j e s) (fselOf e.hk) e.p (h.mono hn)
  · rfl

theorem complete_withBuf {n1 : Count} {m : Memory} {s : State} (h : AgreeBelow n1.toNat s.buf m)
    (hn : n1.toNat = 7 + s.len.toNat) : complete n1 (withBuf m s) = withBuf m (complete n1 s) := by
  have hframe : outputFrame n1 (attachSum (raise .frameComplete (withBuf m s))) =
      withBuf m (outputFrame n1 (attachSum (raise .frameComplete s))) :=
    outputFrame_withBuf (s := attachSum (raise .frameComplete s)) h
  rw [complete, completeReport, hframe, outputPass_withBuf (by exact h) (by omega),
    matchFrame_withBuf (by exact h) (by simp only [outputPass_len, outputFrame_len, attachSum_len, raise_len]; omega)]
  rfl

/-! ### Blocks that differ in stale cells only -/

/-- The two blocks, both with canonical buffers, differ only in cells that no rule reads: in ACC those at or above `CNT`,
in another phase any (R40, R51). -/
structure SameButStale (s s' : State) : Prop where
  wf : s.buf.wf = true
  wf' : s'.buf.wf = true
  eq : s' = withBuf s'.buf s
  agree : s.phase = .acc → AgreeBelow s.cnt.toNat s.buf s'.buf

theorem SameButStale.exists_withBuf {s s' : State} (h : SameButStale s s') : ∃ m, s' = withBuf m s := ⟨s'.buf, h.eq⟩

section
variable {s : State} {m : Memory} (b : Byte) (h : SameButStale s (withBuf m s)) (hp : s.phase = .acc)
  (hn : s.cnt.toNat < Config.bufCap)
include h hp hn

/-- A byte stored in ACC is one more cell on which the two buffers agree. -/
theorem SameButStale.store :
    (s.buf.write s.cnt.toNat b).wf = true ∧ (m.write s.cnt.toNat b).wf = true ∧
    AgreeBelow (s.cnt + 1).toNat (s.buf.write s.cnt.toNat b) (m.write s.cnt.toNat b) :=
  ⟨Memory.wf_write _ _ _ h.wf hn, Memory.wf_write _ _ _ h.wf' hn,
    count_succ hn ▸ (h.agree hp).write h.wf h.wf' b⟩

/-- The frame reported at a failed pre-check is made of bytes on which the two buffers agree (R132). -/
theorem SameButStale.byteStep_fail (hpre : 5 ≤ s.cnt + 1 ∧ s.cnt + 1 = precheckCount (latched s.cnt b s.len))
    (hsum : s.csum + b ≠ 0) : SameButStale (byteStep b s) (byteStep b (withBuf m s)) := by
  obtain ⟨hwf, hwf', hstored⟩ := h.store b hp hn
  have hcnt := eq_precheckCount.1 hpre.2
  have hpass : filterPass (withBuf (m.write s.cnt.toNat b) { s with buf := s.buf.write s.cnt.toNat b }) =
      filterPass { s with buf := s.buf.write s.cnt.toNat b } := filterPass_withBuf hstored (by omega)
  rw [byteStep_acc_fail b hp hn hpre hsum, byteStep_acc_fail (s := withBuf m s) b hp hn hpre hsum]
  refine ⟨hwf, hwf', ?_, nofun⟩
  simp only [withBuf] at hpass ⊢
  rw [hstored.frameBytes, hpass]

/-- The completed frame is made of bytes on which the two buffers agree, and COMPLETE reads nothing else (R106). -/
theorem SameButStale.byteStep_complete (hend : 5 ≤ s.cnt + 1 ∧ s.cnt + 1 = frameCount s.len) (h4 : s.cnt ≠ 4) :
    SameButStale (byteStep b s) (byteStep b (withBuf m s)) := by
  obtain ⟨hwf, hwf', hstored⟩ := h.store b hp hn
  have hother : byteStep b (withBuf m s) =
      withBuf (m.write s.cnt.toNat b) (complete (s.cnt + 1) (completed b s)) :=
    (byteStep_acc_complete (s := withBuf m s) b hp hn hend h4).trans
      (complete_withBuf (s := completed b s) hstored (eq_frameCount.1 hend.2))
  rw [byteStep_acc_complete b hp hn hend h4, hother]
  exact ⟨(congrArg Memory.wf (complete_buf _ _)).trans hwf, hwf', rfl,
    fun hacc => absurd ((complete_phase _ _).symm.trans hacc) nofun⟩

end

/-- The two blocks take the same path of a BYTE, and no path reads a stale cell. -/
theorem SameButStale.byteStep (b : Byte) {s s' : State} (h : SameButStale s s') (hr : s.phase ≠ .reserved) :
    SameButStale (byteStep b s) (byteStep b s') := by
  obtain ⟨m, rfl⟩ := h.exists_withBuf
  rcases byteStep_cases b s hr with
    hp | ⟨hp, hn, hpre | ⟨h5, hend, h4⟩ | ⟨hpre, hend⟩⟩ | ⟨hp, hn⟩ | hp
  · have hnone : AgreeBelow 0 s.buf m := nofun
    have hroom : 0 < Config.bufCap := by decide
    rw [byteStep_idle b hp, byteStep_idle (s := withBuf m s) b hp]
    exact ⟨Memory.wf_write _ _ _ h.wf hroom, Memory.wf_write _ _ _ h.wf' hroom, rfl,
      fun _ => hnone.write h.wf h.wf' b⟩
  · by_cases hsum : s.csum + b = 0
    · obtain ⟨hwf, hwf', hstored⟩ := h.store b hp hn
      rw [byteStep_acc_pass b hp hn hpre hsum, byteStep_acc_pass (s := withBuf m s) b hp hn hpre hsum]
      exact ⟨hwf, hwf', rfl, fun _ => hstored⟩
    · exact h.byteStep_fail b hp hn hpre hsum
  · exact h.byteStep_complete b hp hn ⟨h5, hend⟩ h4
  · obtain ⟨hwf, hwf', hstored⟩ := h.store b hp hn
    rw [byteStep_acc_mid b hp hn hpre hend, byteStep_acc_mid (s := withBuf m s) b hp hn hpre hend]
    exact ⟨hwf, hwf', rfl, fun _ => hstored⟩
  · have hother := byteStep_overflow (s := withBuf m s) b hp hn
    rw [byteStep_overflow b hp hn, hother]
    by_cases hlast : s.cnt + 1 = frameCount s.len
    · rw [if_pos hlast, if_pos (by exact hlast)]
      exact ⟨h.wf, h.wf', rfl, nofun⟩
    · rw [if_neg hlast, if_neg (by exact hlast)]
      exact ⟨h.wf, h.wf', rfl, nofun⟩
  · by_cases hlast : s.cnt + 1 = frameCount s.len
    · rw [byteStep_skip_end b hp hlast, byteStep_skip_end (s := withBuf m s) b hp hlast]
      exact ⟨h.wf, h.wf', rfl, nofun⟩
    · rw [byteStep_skip_mid b hp hlast, byteStep_skip_mid (s := withBuf m s) b hp hlast]
      exact ⟨h.wf, h.wf', rfl, fun hacc => absurd (hp.symm.trans hacc) nofun⟩

theorem SameButStale.timeoutStep {s s' : State} (h : SameButStale s s') :
    SameButStale (timeoutStep s) (timeoutStep s') := by
  obtain ⟨m, rfl⟩ := h.exists_withBuf
  by_cases hp : s.phase = .idle
  · rw [timeoutStep_idle hp, timeoutStep_idle (s := withBuf m s) hp]
    exact ⟨h.wf, h.wf', rfl, h.agree⟩
  · rw [timeoutStep_busy hp, timeoutStep_busy (s := withBuf m s) hp]
    exact ⟨h.wf, h.wf', rfl, nofun⟩

theorem SameButStale.running {s s' : State} (h : SameButStale s s') (hrun : s.Running) : s'.Running := by
  obtain ⟨m, rfl⟩ := h.exists_withBuf
  exact hrun

theorem SameButStale.clearOut {s s' : State} (h : SameButStale s s') : SameButStale (clearOut s) (clearOut s') := by
  obtain ⟨hwf, hwf', heq, hagree⟩ := h
  exact ⟨hwf, hwf', congrArg Machine.clearOut heq, hagree⟩

theorem SameButStale.resetStep (en : Bool) (addr : Byte) {s s' : State} (h : SameButStale s s') :
    SameButStale (resetStep en addr s) (resetStep en addr s') := by
  obtain ⟨hwf, hwf', heq, -⟩ := h
  exact ⟨hwf, hwf', congrArg (Machine.resetStep en addr) heq, nofun⟩

/-- What is to be presented next is no part of the relation. -/
theorem SameButStale.withInputs {s s' : State} (h : SameButStale s s') (ws : List OpWord) :
    SameButStale { s with inputs := ws } { s' with inputs := ws } := by
  obtain ⟨hwf, hwf', heq, hagree⟩ := h
  exact ⟨hwf, hwf', congrArg (fun s => { s with inputs := ws }) heq, hagree⟩

theorem SameButStale.table_eq {s s' : State} (h : SameButStale s s') : s'.table = s.table :=
  (congrArg State.table h.eq :)

/-! ### Operations -/

/-- All that an operation word selects (R70). -/
theorem decodeOp_cases (w : OpWord) :
    decodeOp w = .nop ∨ (∃ b, decodeOp w = .byte b) ∨ decodeOp w = .timeout ∨
      ∃ en addr, decodeOp w = .reset en addr := by
  rcases opcode_cases (w.opw.extractLsb' 8 2) with h | h | h | h
  · exact .inl (decodeOp_nop h)
  · exact .inr (.inl ⟨_, decodeOp_byte h⟩)
  · exact .inr (.inr (.inl (decodeOp_timeout h)))
  · exact .inr (.inr (.inr ⟨_, _, decodeOp_reset h⟩))

/-- No operation tells the two blocks apart, and the next states are again such a pair. -/
theorem SameButStale.exec {s s' t : State} {w : OpWord} (h : SameButStale s s') (hexec : exec (decodeOp w) s = .next t) :
    ∃ t', exec (decodeOp w) s' = .next t' ∧ SameButStale t t' := by
  rcases decodeOp_cases w with hop | ⟨b, hop⟩ | hop | ⟨en, addr, hop⟩
  · rw [hop] at hexec ⊢
    obtain ⟨hrun, rfl⟩ := execNop_next.1 hexec
    exact ⟨_, exec_nop_running (h.running hrun), h.clearOut⟩
  · rw [hop] at hexec ⊢
    obtain ⟨hrun, rfl⟩ := execByte_next.1 hexec
    have ⟨_, _, hphase⟩ := hrun
    exact ⟨_, exec_byte_running b (h.running hrun), h.byteStep b hphase⟩
  · rw [hop] at hexec ⊢
    obtain ⟨hrun, rfl⟩ := execTimeout_next.1 hexec
    exact ⟨_, exec_timeout_running (h.running hrun), h.timeoutStep⟩
  · rw [hop] at hexec ⊢
    obtain ⟨htable, rfl⟩ := execReset_next.1 hexec
    exact ⟨_, exec_reset_built en addr (h.table_eq ▸ htable), h.resetStep en addr⟩

/-- Settles O58: the two blocks are such a pair, and every operation leads to such a pair. -/
theorem staleCellsUnobservable : Obligations.StaleCellsUnobservable := by
  intro s s' w hwf hwf' heq hagree t hexec
  have hsame : SameButStale s s' := ⟨hwf, hwf', heq, hagree⟩
  obtain ⟨t', hexec', ⟨hwft, hwft', heqt, hagreet⟩⟩ := hsame.exec hexec
  exact ⟨t', hexec', heqt, hwft, hwft', hagreet⟩

/-! ### Runs of operations -/

theorem run_succ_next {k : Nat} {s t : State} :
    run (k + 1) s = .next t ↔ ∃ u, step s = .next u ∧ run k u = .next t := by
  rw [run]
  cases step s with
  | next u => simp
  | fault r | refused r => simp

theorem SameButStale.step {s s' t : State} (h : SameButStale s s') (hp : s.probe = none) (hstep : step s = .next t) :
    ∃ t', step s' = .next t' ∧ SameButStale t t' ∧ t.probe = none := by
  have hp' : s'.probe = none := (congrArg State.probe h.eq).trans hp
  have hinputs' : s'.inputs = s.inputs := (congrArg State.inputs h.eq :)
  cases hi : s.inputs with
  | nil =>
    rw [step_idle hp hi] at hstep
    cases hstep
    exact ⟨s', step_idle hp' (hinputs'.trans hi), h, hp⟩
  | cons w ws =>
    rw [step_inputs hp hi] at hstep
    rw [step_inputs hp' (hinputs'.trans hi)]
    obtain ⟨t', hexec', hsame⟩ := (h.withInputs ws).clearOut.exec hstep
    obtain ⟨-, -, hprobe⟩ := exec_frame hstep
    exact ⟨t', hexec', hsame, hprobe.trans hp⟩

theorem SameButStale.run {k : Nat} {s s' t : State} (h : SameButStale s s') (hp : s.probe = none)
    (hrun : run k s = .next t) : ∃ t', run k s' = .next t' ∧ SameButStale t t' := by
  induction k generalizing s s' with
  | zero =>
    cases hrun
    exact ⟨s', rfl, h⟩
  | succ k ih =>
    obtain ⟨u, hstep, hrest⟩ := run_succ_next.1 hrun
    obtain ⟨u', hstep', hsame, hpu⟩ := h.step hp hstep
    obtain ⟨t', hrest', hsame'⟩ := ih hsame hpu hrest
    exact ⟨t', run_succ_next.2 ⟨u', hstep', hrest'⟩, hsame'⟩

/-- The outputs of such a pair are the same. -/
theorem SameButStale.outputs {s s' : State} (h : SameButStale s s') :
    s'.out = s.out ∧ stat0 s' = stat0 s ∧ stat1 s' = stat1 s := by
  rw [h.eq]
  exact ⟨rfl, rfl, rfl⟩

/-- A RESET makes such a pair of any two blocks with the same table: it sets every register (R112, R221). -/
theorem resetStep_sameButStale (en : Bool) (addr : Byte) {s s' : State} (hwf : s.buf.wf = true)
    (hwf' : s'.buf.wf = true) (htable : s'.table = s.table) (hinputs : s'.inputs = s.inputs)
    (hprobe : s'.probe = s.probe) : SameButStale (resetStep en addr s) (resetStep en addr s') := by
  refine ⟨hwf, hwf', ?_, nofun⟩
  simp only [Machine.resetStep, raise, frameEndClear, withBuf, Machine.clearOut, htable, hinputs, hprobe]

/-- Settles O59: the RESET makes the two blocks differ in stale cells only, and so they do from then on. -/
theorem sessionsAreIdempotent : Obligations.SessionsAreIdempotent := by
  intro s s' t w ws k hwf hwf' htable hp hp' hi hi' hop hk hrun
  obtain ⟨k, rfl⟩ := Nat.exists_eq_add_of_le' hk
  obtain ⟨u, hstep, hrest⟩ := run_succ_next.1 hrun
  rw [step_inputs hp hi, decodeOp_reset hop] at hstep
  obtain ⟨hbuilt, rfl⟩ := execReset_next.1 hstep
  have hsame : SameButStale (resetStep w.cfgFiltEn w.cfgFiltAddr (clearOut { s with inputs := ws }))
      (resetStep w.cfgFiltEn w.cfgFiltAddr (clearOut { s' with inputs := ws })) :=
    resetStep_sameButStale _ _ hwf hwf' htable rfl (hp'.trans hp.symm)
  obtain ⟨t', hrest', hsame'⟩ := hsame.run hp hrest
  have hstep' := exec_reset_built (s := clearOut { s' with inputs := ws }) w.cfgFiltEn w.cfgFiltAddr (htable ▸ hbuilt)
  rw [← decodeOp_reset hop, ← step_inputs hp' hi'] at hstep'
  exact ⟨t', run_succ_next.2 ⟨_, hstep', hrest'⟩, hsame'.outputs⟩

end Sys2Proof.Machine

/-! PROOF of O55, O56 and O57 (41_checksum.md, 40_frame_accumulator.md section 5, 60_exceptions.md section 2): what a run
does with a whole frame, byte by byte, and with the rest of a condemned one. -/

namespace Sys2Proof.Machine

/-! ### Bytes presented back to back -/

/-- A block that has been built and RESET, about to be presented with the bytes `bs` and then the operations `rest`. -/
structure Presented (s : State) (bs : List Byte) (rest : List OpWord) : Prop where
  table : tableWf s.table = true
  booted : s.booted = true
  probe : s.probe = none
  inputs : s.inputs = bs.map byteWord ++ rest

/-- The block with the operations `ws` still to come. -/
def withInputs (ws : List OpWord) (s : State) : State := { s with inputs := ws }

theorem decodeOp_byteWord (b : Byte) : decodeOp (byteWord b) = .byte b := by
  have hop : (byteWord b).opw.extractLsb' 8 2 = 1 := BitVec.extractLsb'_append_eq_left
  have hdata : (byteWord b).opw.extractLsb' 0 8 = b := BitVec.extractLsb'_append_eq_right
  rw [decodeOp_byte hop, hdata]

/-- The step of the first byte presented. -/
theorem Presented.step {s : State} {b : Byte} {bs : List Byte} {rest : List OpWord} (h : Presented s (b :: bs) rest)
    (hr : s.phase ≠ .reserved) :
    step s = .next (byteStep b (withInputs (bs.map byteWord ++ rest) s)) ∧
    Presented (byteStep b (withInputs (bs.map byteWord ++ rest) s)) bs rest := by
  obtain ⟨htable, hbooted, hprobe, hinputs⟩ := h
  have hrun : (clearOut (withInputs (bs.map byteWord ++ rest) s)).Running := ⟨htable, hbooted, hr⟩
  constructor
  · rw [step_inputs hprobe hinputs, decodeOp_byteWord]
    exact exec_byte_running b hrun
  · exact ⟨(congrArg tableWf (byteStep_table b _)).trans htable, (byteStep_booted b _).trans hbooted,
      (byteStep_probe b _).trans hprobe, byteStep_inputs b _⟩

theorem run_snoc {k : Nat} {s t u : State} (hrun : run k s = .next t) (hstep : step t = .next u) :
    run (k + 1) s = .next u := by
  rw [run_add k 1 hrun, run_one, hstep]

/-! ### The rest of a condemned frame (R107, R108) -/

/-- The bytes still to come of a condemned frame are counted, and the last of them ends it. -/
theorem run_skip {bs : List Byte} {rest : List OpWord} {s : State} (h : Presented s bs rest) (hskip : s.phase = .skip)
    (hne : bs ≠ []) (hcnt : s.cnt.toNat + bs.length = 7 + s.len.toNat) :
    ∃ t, run bs.length s = .next t ∧ t.out = { OutRecord.zero with ev := .skipEnd, fend := true } ∧
      t.phase = .idle ∧ t.inputs = rest := by
  induction bs generalizing s with
  | nil => exact absurd rfl hne
  | cons b bs ih =>
    obtain ⟨hstep, hnext⟩ := h.step (by simp [hskip])
    rw [List.length_cons] at hcnt
    cases bs with
    | nil =>
      have hlast : s.cnt + 1 = frameCount s.len := next_eq_frameCount.2 (by simpa using hcnt)
      rw [byteStep_skip_end b (by exact hskip) (by exact hlast)] at hstep
      exact ⟨_, (run_one s).trans hstep, rfl, rfl, rfl⟩
    | cons b' bs =>
      rw [List.length_cons] at hcnt
      have hlen := s.len.isLt
      have hmid : s.cnt + 1 ≠ frameCount s.len := mt next_eq_frameCount.1 (by omega)
      have hsucc : (s.cnt + 1).toNat = (s.cnt.toNat + 1) % 512 := BitVec.toNat_add s.cnt 1
      rw [byteStep_skip_mid b (by exact hskip) (by exact hmid)] at hstep hnext
      obtain ⟨t, hrun, hend⟩ := ih hnext hskip (List.cons_ne_nil _ _) (by
        simp only [withInputs, List.length_cons]
        omega)
      exact ⟨t, run_succ_next.2 ⟨_, hstep, hrun⟩, hend⟩

/-- Settles O57: SKIP's invariant leaves at least one byte to come. -/
theorem skipEndsByCount : Obligations.SkipEndsByCount := by
  intro s bs rest ⟨htable, hbooted, _⟩ hskip ⟨_, hlt, _⟩ hprobe hinputs hlength
  have hne : bs ≠ [] := List.ne_nil_of_length_pos (by omega)
  obtain ⟨t, hrun, hout, hidle, hrest⟩ :=
    run_skip ⟨htable, hbooted, hprobe, hinputs⟩ hskip hne (by omega)
  exact ⟨t, hrun, by rw [hout], by rw [hout], hidle, hrest⟩

/-! ### A frame in progress -/

/-- The state in which the first `j` bytes of the frame `bs` of declared length `L` have been accumulated and the frame
goes on. -/
structure Midframe (L : Byte) (bs : List Byte) (rest : List OpWord) (j : Nat) (t : State) : Prop where
  presented : Presented t (bs.drop j) rest
  phase : t.phase = .acc
  wf : t.buf.wf = true
  cnt : t.cnt.toNat = j
  csum : t.csum = (bs.take j).sum
  len : t.len = if j < 5 then 0 else L
  held : ∀ i, i < j → bs[i]? = some (t.buf.read i)
  ev : t.out.ev = .continuing
  hit : t.out.mHit = false
  chk : t.out.chk = decide (j = 6 + L.toNat)

theorem take_succ_sum {bs : List Byte} {j : Nat} {b : Byte} (hb : bs[j]? = some b) :
    (bs.take (j + 1)).sum = (bs.take j).sum + b := by
  rw [List.take_add_one, hb]
  simp

theorem drop_eq_cons {bs : List Byte} {j : Nat} {b : Byte} (hb : bs[j]? = some b) :
    bs.drop j = b :: bs.drop (j + 1) := by
  obtain ⟨hj, rfl⟩ := List.getElem?_eq_some_iff.1 hb
  exact List.drop_eq_getElem_cons hj

@[simp] theorem complete_out_flen (n1 : Count) (s : State) : (complete n1 s).out.flen = n1.setWidth 5 := by
  simp [complete_eq]

@[simp] theorem complete_out_frame (n1 : Count) (s : State) :
    (complete n1 s).out.frame = frameBytes s.buf n1.toNat := by
  simp [complete_eq]

/-- A count within the buffer's capacity fits the five bits of `flen` (R73). -/
theorem toNat_flen {c : Count} {j : Nat} (hc : c.toNat = j + 1) (hroom : j < 27) : (c.setWidth 5).toNat = j + 1 := by
  rw [BitVec.toNat_setWidth, hc]
  omega

/-- The frame that a step outputs of a buffer that holds its first `n` bytes (R73). -/
theorem frameBytes_take {m : Memory} {n : Nat} {bs : List Byte} (hn : n ≤ Config.bufCap)
    (hheld : ∀ i, i < n → bs[i]? = some (m.read i)) : (frameBytes m n).take n = bs.take n := by
  refine List.ext_getElem? fun i => ?_
  rw [List.getElem?_take, List.getElem?_take]
  split
  · next hi => rw [frameBytes_get m n i (hi.trans_le hn), if_pos hi, hheld i hi]
  · rfl

section
variable {L : Byte} {bs : List Byte} {rest : List OpWord}

/-- The first byte of a frame, in IDLE (R102). -/
theorem midframe_first {s : State} (hfed : s.Fed bs rest) (hframe : IsFrame L bs) :
    ∃ t, run 1 s = .next t ∧ Midframe L bs rest 1 t := by
  obtain ⟨⟨htable, hbooted, hphase⟩, hidle, hwf, hprobe, hinputs⟩ := hfed
  obtain ⟨hlength, -⟩ := hframe
  cases bs with
  | nil => simp at hlength; omega
  | cons b bs =>
    obtain ⟨hstep, hnext⟩ := Presented.step ⟨htable, hbooted, hprobe, hinputs⟩ hphase
    rw [byteStep_idle b (by exact hidle)] at hstep hnext
    refine ⟨_, (run_one s).trans hstep, hnext, rfl, Memory.wf_write _ _ _ hwf (by decide), rfl, by simp, rfl, ?_, rfl, rfl,
      (decide_eq_false (by omega)).symm⟩
    intro i hi
    obtain rfl : i = 0 := by omega
    exact congrArg some ((Memory.read_write s.buf 0 b 0 hwf).trans (if_pos rfl)).symm

section
variable {j : Nat} {t : State} {b : Byte} (h : Midframe L bs rest j t) (hb : bs[j]? = some b)
include h hb

/-- The length latched with byte `j` is `L` from index 4 on. -/
theorem Midframe.latched (hframe : IsFrame L bs) : latched t.cnt b t.len = if j + 1 < 5 then 0 else L := by
  obtain ⟨-, hfour⟩ := hframe
  rw [Machine.latched, h.len, if_congr count_eq_four rfl rfl, h.cnt]
  by_cases h4 : j = 4
  · subst h4
    simpa using Option.some.inj (hb.symm.trans hfour)
  · have hlow : j < 5 ↔ j + 1 < 5 := by omega
    rw [if_neg h4, if_congr hlow rfl rfl]

/-- With byte `j` stored, the buffer holds the first `j + 1` bytes of the frame. -/
theorem Midframe.held_write : ∀ i, i < j + 1 → bs[i]? = some ((t.buf.write t.cnt.toNat b).read i) := by
  intro i hi
  rw [Memory.read_write _ _ _ _ h.wf, h.cnt]
  split
  · next hij => rw [← hij, hb]
  · next hij => exact h.held i (by omega)

/-- A byte accumulated with the frame going on. -/
theorem Midframe.advance (hframe : IsFrame L bs) (hroom : j < 27) {u : State} {o : OutRecord}
    (hpresented : Presented u (bs.drop (j + 1)) rest)
    (hu : u = { stored b t with inputs := u.inputs, out := o }) (hev : o.ev = .continuing) (hhit : o.mHit = false)
    (hchk : o.chk = decide (j + 1 = 6 + L.toNat)) : Midframe L bs rest (j + 1) u := by
  have hcap : t.cnt.toNat < Config.bufCap := h.cnt.trans_lt hroom
  refine ⟨hpresented, ?_, ?_, ?_, ?_, ?_, ?_, ?_, ?_, ?_⟩ <;> rw [hu]
  · exact h.phase
  · exact Memory.wf_write _ _ _ h.wf hcap
  · exact (stored_cnt b hcap).trans (congrArg (· + 1) h.cnt)
  · rw [take_succ_sum hb, ← h.csum]
    rfl
  · exact h.latched hb hframe
  · exact h.held_write hb
  · exact hev
  · exact hhit
  · exact hchk

/-- The next byte of a frame that goes on: before the pre-check's count, or at it with a good sum (R103, R132). -/
theorem Midframe.next (hframe : IsFrame L bs) (hroom : j < 27) (hj : j + 1 ≤ 6 + L.toNat)
    (hgood : j + 1 = 6 + L.toNat → (bs.take (6 + L.toNat)).sum = 0) :
    ∃ u, step t = .next u ∧ Midframe L bs rest (j + 1) u := by
  have hcap : t.cnt.toNat < Config.bufCap := h.cnt.trans_lt hroom
  have hlatched := h.latched hb hframe
  have hsucc : (t.cnt + 1).toNat = j + 1 := (count_succ hcap).trans (congrArg (· + 1) h.cnt)
  obtain ⟨hstep, hpresented⟩ := (drop_eq_cons hb ▸ h.presented).step (by simp [h.phase])
  by_cases hpre : j + 1 = 6 + L.toNat
  · have hpre' : 5 ≤ t.cnt + 1 ∧ t.cnt + 1 = precheckCount (Machine.latched t.cnt b t.len) := by
      rw [five_le_count, eq_precheckCount, hlatched, hsucc, if_neg (by omega)]
      omega
    have hsum : t.csum + b = 0 := by rw [h.csum, ← take_succ_sum hb, hpre, hgood hpre]
    rw [byteStep_acc_pass b (by exact h.phase) (by exact hcap) (by exact hpre') (by exact hsum)] at hstep hpresented
    refine ⟨_, hstep, h.advance (o := { OutRecord.zero with ev := .continuing, chk := true, acc := 0 })
      hb hframe hroom hpresented ?_ rfl rfl (decide_eq_true hpre).symm⟩
    rw [stored, hsum]
    rfl
  · have hmid : 5 ≤ t.cnt + 1 → (t.cnt + 1).toNat < 6 + (Machine.latched t.cnt b t.len).toNat := by
      rw [five_le_count, hsucc, hlatched]
      intro h5
      rw [if_neg (by omega)]
      omega
    have hpre' : ¬ (5 ≤ t.cnt + 1 ∧ t.cnt + 1 = precheckCount (Machine.latched t.cnt b t.len)) := fun ⟨h5, he⟩ =>
      (hmid h5).ne (eq_precheckCount.1 he)
    have hend' : ¬ (5 ≤ t.cnt + 1 ∧ t.cnt + 1 = frameCount (Machine.latched t.cnt b t.len)) := fun ⟨h5, he⟩ =>
      (hmid h5).not_ge (by rw [eq_frameCount.1 he]; omega)
    rw [byteStep_acc_mid b (by exact h.phase) (by exact hcap) (by exact hpre') (by exact hend')] at hstep hpresented
    exact ⟨_, hstep, h.advance (o := { OutRecord.zero with ev := .continuing }) hb hframe hroom hpresented rfl rfl rfl
      (decide_eq_false hpre).symm⟩

/-- The byte of a bad pre-check: the frame so far is reported, and the rest of it is to be skipped (R132). -/
theorem Midframe.fails (hframe : IsFrame L bs) (hroom : j < 27) (hj : j + 1 = 6 + L.toNat)
    (hbad : (bs.take (j + 1)).sum ≠ 0) :
    ∃ u, step t = .next u ∧ Presented u (bs.drop (j + 1)) rest ∧ u.phase = .skip ∧ u.cnt.toNat = j + 1 ∧ u.len = L ∧
      u.out.ev = .badCrc ∧ u.out.mHit = false ∧ u.out.acc = (bs.take (j + 1)).sum ∧
      u.out.flen.toNat = j + 1 ∧ u.out.frame.take (j + 1) = bs.take (j + 1) := by
  have hcap : t.cnt.toNat < Config.bufCap := h.cnt.trans_lt hroom
  have hsucc : (t.cnt + 1).toNat = j + 1 := (count_succ hcap).trans (congrArg (· + 1) h.cnt)
  have hlatched : Machine.latched t.cnt b t.len = L := (h.latched hb hframe).trans (if_neg (by omega))
  have hpre : 5 ≤ t.cnt + 1 ∧ t.cnt + 1 = precheckCount (Machine.latched t.cnt b t.len) := by
    rw [five_le_count, eq_precheckCount, hlatched, hsucc]
    omega
  have hsum : t.csum + b = (bs.take (j + 1)).sum := by rw [h.csum, ← take_succ_sum hb]
  have hne : t.csum + b ≠ 0 := hsum ▸ hbad
  obtain ⟨hstep, hpresented⟩ := (drop_eq_cons hb ▸ h.presented).step (by simp [h.phase])
  rw [byteStep_acc_fail b (by exact h.phase) (by exact hcap) (by exact hpre) (by exact hne)] at hstep hpresented
  refine ⟨_, hstep, hpresented, rfl, hsucc, hlatched, rfl, rfl, hsum, ?_, ?_⟩
  · exact toNat_flen hsucc hroom
  · refine Eq.trans ?_ (frameBytes_take hroom (h.held_write hb))
    exact congrArg (fun n => (frameBytes (t.buf.write t.cnt.toNat b) n).take (j + 1)) hsucc

/-- The last byte of a frame whose pre-check has passed completes it (R106). -/
theorem Midframe.completes (hroom : j < 27) (hj : j + 1 = 7 + L.toNat) :
    ∃ u, step t = .next u ∧ Presented u (bs.drop (j + 1)) rest ∧ u.phase = .idle ∧ u.out.ev = .frameComplete ∧
      u.out.fend = true ∧ u.out.acc = (bs.take (j + 1)).sum ∧ u.out.flen.toNat = j + 1 ∧
      u.out.frame.take (j + 1) = bs.take (j + 1) := by
  have hcap : t.cnt.toNat < Config.bufCap := h.cnt.trans_lt hroom
  have hsucc : (t.cnt + 1).toNat = j + 1 := (count_succ hcap).trans (congrArg (· + 1) h.cnt)
  have hlen : t.len = L := h.len.trans (if_neg (by omega))
  have hlast : t.cnt.toNat + 1 = 7 + t.len.toNat := by rw [h.cnt, hlen, hj]
  obtain ⟨hstep, hpresented⟩ := (drop_eq_cons hb ▸ h.presented).step (by simp [h.phase])
  rw [byteStep_completes b (by exact h.phase) (by exact hcap) (by exact hlast)] at hstep hpresented
  refine ⟨_, hstep, hpresented, complete_phase _ _, complete_out_ev _ _, complete_out_fend _ _, ?_, ?_, ?_⟩
  · rw [complete_out_acc, take_succ_sum hb, ← h.csum]
    rfl
  · rw [complete_out_flen]
    exact toNat_flen hsucc hroom
  · rw [complete_out_frame]
    refine Eq.trans ?_ (frameBytes_take hroom (h.held_write hb))
    exact congrArg (fun n => (frameBytes (t.buf.write t.cnt.toNat b) n).take (j + 1)) hsucc

/-- The byte that finds the buffer full (R103): the frame ends with it, or is to be skipped. -/
theorem Midframe.overflows (hfull : j = 27) :
    ∃ u, step t = .next u ∧ Presented u (bs.drop (j + 1)) rest ∧ u.out.ev = .overflow ∧ u.out.chk = false ∧
      (j + 1 = 7 + L.toNat → u.out.fend = true ∧ u.phase = .idle) ∧
      (j + 1 ≠ 7 + L.toNat → u.out.fend = false ∧ u.phase = .skip ∧ u.cnt.toNat = j + 1 ∧ u.len = L) := by
  have hlen : t.len = L := h.len.trans (if_neg (by omega))
  have hcap : ¬ t.cnt.toNat < Config.bufCap := by rw [h.cnt, hfull]; decide
  have hlast : t.cnt + 1 = frameCount t.len ↔ j + 1 = 7 + L.toNat := by rw [next_eq_frameCount, h.cnt, hlen]
  obtain ⟨hstep, hpresented⟩ := (drop_eq_cons hb ▸ h.presented).step (by simp [h.phase])
  have hover := byteStep_overflow (s := withInputs ((bs.drop (j + 1)).map byteWord ++ rest) t) b h.phase hcap
  by_cases hj : j + 1 = 7 + L.toNat
  · rw [if_pos (by exact hlast.2 hj)] at hover
    rw [hover] at hstep hpresented
    exact ⟨_, hstep, hpresented, rfl, rfl, fun _ => ⟨rfl, rfl⟩, fun hne => absurd hj hne⟩
  · have hsucc : (t.cnt + 1).toNat = (t.cnt.toNat + 1) % 512 := BitVec.toNat_add t.cnt 1
    have hcnt : (t.cnt + 1).toNat = j + 1 := by rw [hsucc, h.cnt, hfull]
    rw [if_neg (by exact mt hlast.1 hj)] at hover
    rw [hover] at hstep hpresented
    exact ⟨_, hstep, hpresented, rfl, rfl, fun he => absurd he hj, fun _ => ⟨rfl, rfl, hcnt, hlen⟩⟩

end

/-! ### A whole frame -/

theorem getElem?_of_isFrame (hframe : IsFrame L bs) {j : Nat} (hj : j < 7 + L.toNat) : ∃ b, bs[j]? = some b :=
  ⟨bs[j]'(hframe.1 ▸ hj), List.getElem?_eq_getElem _⟩

variable {s : State} (hfed : s.Fed bs rest) (hframe : IsFrame L bs)
include hfed hframe

/-- As long as no check fails and the buffer has room, the frame goes on. -/
theorem run_midframe {j : Nat} (hpos : 1 ≤ j) (hroom : j ≤ 27) (hj : j ≤ 6 + L.toNat)
    (hgood : j = 6 + L.toNat → (bs.take (6 + L.toNat)).sum = 0) :
    ∃ t, run j s = .next t ∧ Midframe L bs rest j t := by
  induction j, hpos using Nat.le_induction with
  | base => exact midframe_first hfed hframe
  | succ j _ ih =>
    obtain ⟨t, hrun, hmid⟩ := ih (by omega) (by omega) (by omega)
    obtain ⟨b, hb⟩ := getElem?_of_isFrame hframe (j := j) (by omega)
    obtain ⟨u, hstep, hnext⟩ := hmid.next hb hframe hroom hj hgood
    exact ⟨u, run_snoc hrun hstep, hnext⟩

/-- A frame with room for its checksum byte and a bad sum is reported at that byte and skipped at the next. -/
theorem run_badFrame (hL : L.toNat ≤ 21) (hbad : (bs.take (6 + L.toNat)).sum ≠ 0) :
    (∃ t, run (6 + L.toNat) s = .next t ∧ t.out.ev = .badCrc ∧ t.out.mHit = false ∧
      t.out.acc = (bs.take (6 + L.toNat)).sum ∧ t.out.flen.toNat = 6 + L.toNat ∧
      t.out.frame.take (6 + L.toNat) = bs.take (6 + L.toNat)) ∧
    ∃ t, run (7 + L.toNat) s = .next t ∧ t.out = { OutRecord.zero with ev := .skipEnd, fend := true } ∧
      t.phase = .idle ∧ t.inputs = rest := by
  have hj : 5 + L.toNat + 1 = 6 + L.toNat := by omega
  obtain ⟨t, hrun, hmid⟩ := run_midframe hfed hframe (j := 5 + L.toNat) (by omega) (by omega) (by omega) (by omega)
  obtain ⟨b, hb⟩ := getElem?_of_isFrame hframe (j := 5 + L.toNat) (by omega)
  obtain ⟨u, hstep, hpresented, hskip, hcnt, hlen, hev, hhit, hacc, hflen, hout⟩ :=
    hmid.fails hb hframe (by omega) hj (hj ▸ hbad)
  have hrun' := run_snoc hrun hstep
  rw [hj] at hrun' hpresented hcnt hacc hflen hout
  obtain ⟨hlength, -⟩ := hframe
  have hleft : (bs.drop (6 + L.toNat)).length = 1 := by
    rw [List.length_drop, hlength]
    omega
  obtain ⟨v, hskipRun, hend⟩ := run_skip hpresented hskip (List.ne_nil_of_length_pos (by omega))
    (by rw [hleft, hcnt, hlen]; omega)
  have htotal : 6 + L.toNat + 1 = 7 + L.toNat := by omega
  rw [hleft, ← run_add _ 1 hrun', htotal] at hskipRun
  exact ⟨⟨u, hrun', hev, hhit, hacc, hflen, hout⟩, v, hskipRun, hend⟩

end

/-- Settles O55: the frame goes on to its checksum byte, and the sum decides what the last two bytes do. -/
theorem acceptanceIsTheChecksum : Obligations.AcceptanceIsTheChecksum := by
  intro s L bs rest hfed hframe hL
  constructor
  · intro hgood
    obtain ⟨t, hrun, hmid⟩ :=
      run_midframe hfed hframe (j := 6 + L.toNat) (by omega) (by omega) (by omega) fun _ => hgood
    obtain ⟨b, hb⟩ := getElem?_of_isFrame hframe (j := 6 + L.toNat) (by omega)
    have hj : 6 + L.toNat + 1 = 7 + L.toNat := by omega
    obtain ⟨u, hstep, hpresented, hidle, hev, hfend, hacc, hflen, hout⟩ := hmid.completes hb (by omega) hj
    have hall : bs.take (7 + L.toNat) = bs := List.take_of_length_le hframe.1.le
    have hnone : bs.drop (7 + L.toNat) = [] := List.drop_of_length_le hframe.1.le
    rw [take_succ_sum hb, hgood, zero_add] at hacc
    rw [hj] at hflen hout hpresented
    exact ⟨u, hj ▸ run_snoc hrun hstep, hev, hfend, hflen, hout.trans hall, hacc ▸ hb, hidle,
      by simpa [hnone] using hpresented.inputs⟩
  · intro hbad
    obtain ⟨⟨t, hrun, hev, hhit, hacc, hflen, hout⟩, ⟨u, hrun', hout', hidle, hrest⟩⟩ :=
      run_badFrame hfed hframe (by omega) hbad
    refine ⟨⟨t, hrun, hev, hacc, hflen, hout⟩, ⟨u, hrun', by rw [hout'], by rw [hout'], hidle, hrest⟩, ?_⟩
    intro k hk1 hk
    rcases (by omega : k ≤ 5 + L.toNat ∨ k = 6 + L.toNat ∨ k = 7 + L.toNat) with hmid | rfl | rfl
    · obtain ⟨v, hrunv, hmidv⟩ := run_midframe hfed hframe hk1 (by omega) (by omega) (by omega)
      exact ⟨v, hrunv, by simp [hmidv.ev], hmidv.hit⟩
    · exact ⟨t, hrun, by simp [hev], hhit⟩
    · exact ⟨u, hrun', by simp [hout'], by simp [hout', OutRecord.zero]⟩

/-- Settles O56: the buffer is full at byte 28, before, at or after the frame's end as `L` says. -/
theorem overlongFramesOverflow : Obligations.OverlongFramesOverflow := by
  intro s L bs rest hfed hframe hL
  obtain ⟨b, hb⟩ := getElem?_of_isFrame hframe (j := 27) (by omega)
  refine ⟨fun h21 hgood => ?_, fun h21 hbad => ?_, fun h22 => ?_⟩
  · obtain ⟨t, hrun, hmid⟩ := run_midframe hfed hframe (j := 27) (by omega) (by omega) (by omega) fun _ => by rwa [h21]
    obtain ⟨u, hstep, hpresented, hev, -, hlast, -⟩ := hmid.overflows hb rfl
    obtain ⟨hfend, hidle⟩ := hlast (by omega)
    have hnone : bs.drop 28 = [] := List.drop_of_length_le (by rw [hframe.1, h21])
    exact ⟨⟨t, hrun, hmid.ev, by simp [hmid.chk, h21]⟩, u, run_snoc hrun hstep, hev, hfend, hidle,
      by simpa [hnone] using hpresented.inputs⟩
  · have hbadFrame := run_badFrame hfed hframe h21.le (by rwa [h21])
    rw [h21] at hbadFrame
    obtain ⟨⟨t, hrun, hev, -, hacc, -⟩, ⟨u, hrun', hout, hidle, hrest⟩⟩ := hbadFrame
    exact ⟨⟨t, hrun, hev, hacc⟩, u, hrun', by rw [hout], by rw [hout], hidle, hrest⟩
  · obtain ⟨t, hrun, hmid⟩ := run_midframe hfed hframe (j := 27) (by omega) (by omega) (by omega) (by omega)
    obtain ⟨u, hstep, hpresented, hev, hchk, -, hgoes⟩ := hmid.overflows hb rfl
    obtain ⟨hfend, hskip, hcnt, hlen⟩ := hgoes (by omega)
    have hrun' := run_snoc hrun hstep
    have hleft : (bs.drop 28).length = L.toNat - 21 := by
      rw [List.length_drop, hframe.1]
      omega
    obtain ⟨v, hskipRun, hout, hidle, hrest⟩ := run_skip hpresented hskip
      (List.ne_nil_of_length_pos (by rw [hleft]; omega)) (by rw [hleft, hcnt, hlen]; omega)
    have htotal : 28 + (L.toNat - 21) = 7 + L.toNat := by omega
    rw [hleft, ← run_add 28 _ hrun', htotal] at hskipRun
    exact ⟨⟨u, hrun', hev, hfend, hchk, hskip⟩, v, hskipRun, by rw [hout], by rw [hout], hidle, hrest⟩

end Sys2Proof.Machine

/-! PROOF of O51 (30_encoding.md section 7): the words of the assembler's operations and pseudo-operations. -/

namespace Sys2Proof.Machine

section
variable {d u1 u2 s t delta : Nat} {q : List Nat}

/-- FRAMECS and FRAMEBAD are assembled when every operand is a byte and so is the number of payload bytes: the checksum
byte is one by itself (R90). -/
theorem framedWords_some (hx : ∀ x ∈ [d, u1, u2, s, t] ++ q, x < 256) (hq : q.length < 256) :
    framedWords d u1 u2 s q t delta =
      some ((framedBytes d u1 u2 s q t delta).map fun x => ⟨BitVec.ofNat 10 (0x100 + x), false, 0⟩) := by
  rw [framedWords, if_pos hq]
  refine byteWords_some fun x hmem => ?_
  simp only [framedBytes, List.cons_append, List.nil_append, List.mem_append, List.mem_cons, List.not_mem_nil,
    or_false] at hmem hx
  rcases hmem with hd | hu1 | hu2 | hs | hlength | hpayload | hcheck | ht
  · exact hx x (.inl hd)
  · exact hx x (.inr (.inl hu1))
  · exact hx x (.inr (.inr (.inl hu2)))
  · exact hx x (.inr (.inr (.inr (.inl hs))))
  · exact hlength ▸ hq
  · exact hx x (.inr (.inr (.inr (.inr (.inr hpayload)))))
  · exact hcheck ▸ Nat.mod_lt _ (Nat.succ_pos 255)
  · exact hx x (.inr (.inr (.inr (.inr (.inl ht)))))

theorem framedWords_none (h : (∃ x ∈ [d, u1, u2, s, t] ++ q, 256 ≤ x) ∨ 256 ≤ q.length) :
    framedWords d u1 u2 s q t delta = none := by
  rw [framedWords]
  split
  · next hq =>
    obtain ⟨x, hmem, hx⟩ := h.resolve_right (Nat.not_le.2 hq)
    refine byteWords_none ⟨x, ?_, hx⟩
    simp only [List.cons_append, List.nil_append, List.mem_cons, framedBytes, List.mem_append] at hmem ⊢
    tauto
  · rfl

end

/-- FRAMECS adds nothing to the checksum byte, which is below 256. -/
theorem checksumFor_mod (bs : List Nat) : (checksumFor bs + 0) % 256 = checksumFor bs := Nat.mod_mod _ _

/-- Settles O51, operation by operation. -/
theorem assemblerWordsAsWritten : Obligations.AssemblerWordsAsWritten := by
  intro b a d u1 u2 s t delta bs q word head c
  refine ⟨rfl, rfl, rfl, fun ha => if_pos ha, fun ha => if_neg (Nat.not_lt.2 ha), fun hb => ?_, fun hb => ?_,
    byteWords_some, byteWords_none, fun hx hq => ⟨?_, fun h1 h256 => ?_⟩, fun hbad => ⟨framedWords_none hbad, ?_⟩,
    fun hdelta => if_neg (by omega)⟩
  · exact byteWords_some (by simpa using hb)
  · exact byteWords_none ⟨b, List.mem_singleton_self b, hb⟩
  · refine (framedWords_some hx hq).trans ?_
    rw [framedBytes, checksumFor_mod]
    rfl
  · exact (if_pos ⟨h1, h256⟩).trans (framedWords_some hx hq)
  · rw [assembleLine, framedWords_none hbad, ite_self]

end Sys2Proof.Machine
